-- ==== Sys2Proof/Word.lean ====
section
/-! DEFINITION. The plain data shapes the whole model is made of: bytes, rows of a fixed number of like things,
and the pair of the two segment links. -/

namespace Sys2Proof

/-- One byte of a frame or of a table entry (11, opening paragraph). -/
abbrev Byte := BitVec 8

/-- A fixed number of like things, numbered from 0: a register bank, a table, the levels of a lamp. The proof field
keeps the size, so reading at an index below `n` never misses. -/
structure Row (n : Nat) (α : Type) where
  cells : List α
  size : cells.length = n
deriving DecidableEq, Repr

namespace Row

variable {n : Nat} {α β : Type}

/-- The thing at position `i`. -/
def get (r : Row n α) (i : Fin n) : α :=
  r.cells[i.val]'(by rw [r.size]; exact i.isLt)

/-- Position `i` replaced. -/
def set (r : Row n α) (i : Fin n) (x : α) : Row n α :=
  ⟨r.cells.set i.val x, by rw [List.length_set]; exact r.size⟩

/-- Position `i` changed by `f`. -/
def modify (r : Row n α) (i : Fin n) (f : α → α) : Row n α :=
  r.set i (f (r.get i))

/-- The same thing at every position. -/
def fill (n : Nat) (x : α) : Row n α :=
  ⟨List.replicate n x, List.length_replicate⟩

/-- One function at every position. -/
def map (f : α → β) (r : Row n α) : Row n β :=
  ⟨r.cells.map f, by rw [List.length_map]; exact r.size⟩

/-- The row whose thing at position `i` is `f i`. -/
def tabulate (f : Fin n → α) : Row n α :=
  ⟨List.ofFn f, List.length_ofFn⟩

/-- One function of position and thing at every position. -/
def mapIdx (f : Fin n → α → β) (r : Row n α) : Row n β :=
  tabulate fun i => f i (r.get i)

end Row

/-- The two segment links, named after the lamps they serve (00, Setting in the vehicle). -/
inductive Link where
  | left
  | right
deriving DecidableEq, Repr

/-- One thing for each of the two links or lamps. -/
structure Both (α : Type) where
  left : α
  right : α
deriving DecidableEq, Repr

namespace Both

variable {α : Type}

/-- The thing of link `l`. -/
def get (b : Both α) : Link → α
  | .left => b.left
  | .right => b.right

/-- The thing of link `l` replaced. -/
def set (b : Both α) (l : Link) (x : α) : Both α :=
  match l with
  | .left => { b with left := x }
  | .right => { b with right := x }

end Both

/-- A module slot address, 0..3 (06, opening). -/
abbrev Slot := Fin 4

/-- A Track Table entry number, 0..23 (R35). -/
abbrev TrackNo := Fin 24

end Sys2Proof
end

