-- ==== Sys2Proof/Syntax.lean ====
section
/-! DEFINITION. The commands of the block: one constructor per row of spec/opcode_table.json, with the operands the
outside supplies. A row of an event that one block raises for another takes no contents: they wait in the state. -/

namespace Sys2Proof

/-- The six fields of the Vehicle State record (R1). -/
inductive VField where
  | speed | steering | pitch | request | road | weather
deriving DecidableEq, Repr

/-- The two lines of the steering quadrature pair (section 1.4). -/
inductive SteerLine where
  | sta | stb
deriving DecidableEq, Repr

/-- What tears SA's scene from outside (R33). -/
inductive TearCause where
  | detached | enterConfig
deriving DecidableEq, Repr

/-- The sixteen conditions, in the order of their numbers (section 8.1). -/
inductive Cond where
  | perceptionStale | sceneTorn | objectOverrun | trackTableFull
  | speedStale | steerStale | requestStale | steerDisagree
  | moduleBroken | moduleSelfFallback | segmentFailed | overtemp
  | applyAbandoned | noModules | linkDetached | tableRejected
deriving DecidableEq, Repr

/-- A condition's kind (section 8.1, column Kind). -/
inductive CondKind where
  | level | event
deriving DecidableEq, Repr

/-- The commands: the rows of the table of operations and events, in the table's order. -/
inductive Instr where
  /-- POWER_ON (R178): supply and RESETN come up with MGB1 and MGB0 at these levels. -/
  | powerOn (mgb1 mgb0 : Bool)
  /-- RESET_PIN (R178): RESETN is released with MGB1 and MGB0 at these levels. -/
  | resetPin (mgb1 mgb0 : Bool)
  /-- VEHICLE_FRAME_TAKE (R2). -/
  | vehicleFrameTake
  /-- STALENESS_TIMER_EXPIRY (R3) of one field. -/
  | stalenessTimerExpiry (field : VField)
  /-- SPD_EDGE (R5): a rising edge on SPD, now. -/
  | spdEdge
  /-- SPEED_TIMEOUT_EXPIRY (R7). -/
  | speedTimeoutExpiry
  /-- STEERING_STEP (R8): a sample in which exactly this line has changed. -/
  | steeringStep (line : SteerLine)
  /-- PHASE_ERROR (R9): a sample in which both lines have changed. -/
  | phaseError
  /-- VEHICLE_PARAMETERS_IN_FORCE (R18). -/
  | vehicleParametersInForce
  /-- OBJECT_FRAME_TAKE (R22). -/
  | objectFrameTake
  /-- SCENE_TIMER_EXPIRY (R31). -/
  | sceneTimerExpiry
  /-- EXTERNAL_SCENE_TEAR (R33), of one cause. -/
  | externalSceneTear (cause : TearCause)
  /-- SCENE_TAKE (R39). -/
  | sceneTake
  /-- HOLD_TIMER_EXPIRY (R54) of one track. -/
  | holdTimerExpiry (track : TrackNo)
  /-- SCENE_TIMEOUT_AGING (R56). -/
  | sceneTimeoutAging
  /-- CLASS_POLICY_IN_FORCE (R38). -/
  | classPolicyInForce
  /-- BUILD_REFRESH_TIMER_EXPIRY (R63). -/
  | buildRefreshTimerExpiry
  /-- BUILD_COMPLETION (R66). -/
  | buildCompletion
  /-- GENERATION_TAKE (R123). -/
  | generationTake
  /-- BLOCK_ACK_TAKE (R126) of the oldest acknowledgement one link handed over. -/
  | blockAckTake (link : Link)
  /-- BROKEN_NOTICE_TAKE (R127) of the oldest notice one link gave. -/
  | brokenNoticeTake (link : Link)
  /-- APPLY_TIMER_EXPIRY (R130). -/
  | applyTimerExpiry
  /-- LINK_FRAME_RECEIVE (R104): these bytes arrived on one link, up to the end of the frame or to line silence. -/
  | linkFrameReceive (link : Link) (bytes : List Byte)
  /-- REPLY_TIMER_EXPIRY (R108) of one module. -/
  | replyTimerExpiry (link : Link) (slot : Slot)
  /-- POLL_TIMER_EXPIRY (R106) of one link. -/
  | pollTimerExpiry (link : Link)
  /-- WAKE_SEQUENCE_END (R115) on one link. -/
  | wakeSequenceEnd (link : Link)
  /-- LINK_TX_COMPLETE (R115) on one link. -/
  | linkTxComplete (link : Link)
  /-- LEVEL_RAW_REPORT (R138): CM takes the oldest waiting report of one condition, and link where it has one. -/
  | levelRawReport (cond : Cond) (link : Option Link)
  /-- CONDITION_EVENT (R140): CM takes a waiting event of one condition. -/
  | conditionEvent (cond : Cond)
  /-- PERSISTENCE_TIMER_EXPIRY (R138) of one level condition. -/
  | persistenceTimerExpiry (cond : Cond)
  /-- LEVEL_RECOVERY_TIMER_EXPIRY (R138) of one level condition. -/
  | levelRecoveryTimerExpiry (cond : Cond)
  /-- EVENT_RECOVERY_TIMER_EXPIRY (R140) of one event condition. -/
  | eventRecoveryTimerExpiry (cond : Cond)
  /-- CONDITION_TABLE_IN_FORCE (R137). -/
  | conditionTableInForce
  /-- UPSTREAM_FRAME_RECEIVE (R150): these bytes arrived on UPRX, up to the end of the frame or to line silence; the
  first of them began `began` microseconds ago. -/
  | upstreamFrameReceive (began : Nat) (bytes : List Byte)
  /-- DETACHED_RECOVERY (R154). -/
  | detachedRecovery
  /-- UPSTREAM_TX_COMPLETE (R161). -/
  | upstreamTxComplete
  /-- MALFORMED_REQUEST (R164): MU takes a request it cannot carry out for its form. -/
  | malformedRequest
  /-- READ_INFO (R166). -/
  | readInfo
  /-- READ_STATE (R167). -/
  | readState
  /-- READ_TRACKS (R59). -/
  | readTracks
  /-- READ_MODULES (R121). -/
  | readModules
  /-- READ_CONDITIONS (R148). -/
  | readConditions
  /-- READ_STATISTICS (R168). -/
  | readStatistics
  /-- READ_TABLE (R172). -/
  | readTable
  /-- LOAD_TABLE (R171). -/
  | loadTable
  /-- COMMIT_TABLES (R173). -/
  | commitTables
  /-- DISCARD_STAGED (R173). -/
  | discardStaged
  /-- ENTER_CONFIG (R175). -/
  | enterConfig
  /-- EXIT_CONFIG (R176). -/
  | exitConfig
  /-- HOLD_LOW (R169). -/
  | holdLow
  /-- RELEASE_HOLD (R169). -/
  | releaseHold
  /-- SET_ISOLATION (R110). -/
  | setIsolation
  /-- SET_STEER_ZERO (R12). -/
  | setSteerZero
  /-- CLEAR_TRACKS (R57). -/
  | clearTracks
  /-- CLEAR_NOTICE (R147). -/
  | clearNotice
  /-- RECOVER_CONDITION (R142). -/
  | recoverCondition
  /-- RECOVER_MODULE (R111). -/
  | recoverModule
  /-- RESTART (R177). -/
  | restart
  /-- RESET_PIN_ASSERTED (R144): RESETN is driven low. -/
  | resetPinAsserted
deriving DecidableEq, Repr

end Sys2Proof
end

