-- ==== Sys2Proof/Decode.lean ====
section
/-! DEFINITION. The commands of the table have no words of their own: no row of it gives bits. What the part decodes are
the bytes of its frames, and that is done where the frames are taken (Machine/Operands.lean). -/

namespace Sys2Proof

/-- The command a word spells by the table's bits: none, for no row of the table gives bits. -/
def decodeTableWord (_nbits _w : Nat) : Option Instr :=
  none

end Sys2Proof
end

