-- ==== Sys2Proof/Machine/Types.lean ====
section
/-! DEFINITION. The records the nine blocks keep: enumerations, tables, frames, and one structure per block. All of it
is plain data. A timer is the microsecond at which it is due, or none while it is stopped. -/

namespace Sys2Proof.Machine

/-- A timer (00, Timers): due at this microsecond of the clock, or stopped. -/
abbrev Timer := Option Nat

/-! ## Enumerations (section 11.6 and the chapters) -/

/-- Beam request (R1). -/
inductive BeamRequest where
  | off | low | highAuto | full | flash
deriving DecidableEq, Repr

/-- Road class (R1). -/
inductive RoadClass where
  | urban | rural | motorway
deriving DecidableEq, Repr

/-- The source a record field took its value from (R1). -/
inductive FieldSource where
  | frame | pin
deriving DecidableEq, Repr

/-- The source choice of the Vehicle Parameters table (section 1.5). -/
inductive SourceChoice where
  | frame | pin | frameElsePin
deriving DecidableEq, Repr

/-- Class of a report or track (section 2.1). -/
inductive ObjClass where
  | oncoming | preceding | twoWheeler | pedestrian | sign | streetlight
deriving DecidableEq, Repr

/-- State of a track (R36). -/
inductive TrackState where
  | tentative | confirmed | coasting
deriving DecidableEq, Repr

/-- Beam mode (00, Terms; R67). -/
inductive Mode where
  | off | low | town | country | motorway | adverse | full | fallback
deriving DecidableEq, Repr

/-- Edge rule of a profile (R72). -/
inductive EdgeRule where
  | hold | dark
deriving DecidableEq, Repr

/-- Lamp or lamps of a fixed window (R87). -/
inductive WindowLamp where
  | left | right | both
deriving DecidableEq, Repr

/-- Kind of a fixed window (R87). -/
inductive WindowKind where
  | cap | floor
deriving DecidableEq, Repr

/-- State of a driver module (R102). -/
inductive ModuleState where
  | absent | joining | active | broken
deriving DecidableEq, Repr

/-- The two frames of the Poll group (R113). -/
inductive PollKind where
  | poll | join
deriving DecidableEq, Repr

/-- The three members that compete for a link's transmitter (section 6.8). -/
inductive Member where
  | pattern | pass | pollGroup
deriving DecidableEq, Repr

/-- Park mode (R118). -/
inductive ParkMode where
  | lastMember | defaultMember
deriving DecidableEq, Repr

/-- Phase of a delivery (chapter 7, opening). -/
inductive Phase where
  | blocks | applying
deriving DecidableEq, Repr

/-- State of a condition (R135). -/
inductive CondState where
  | clear | alert | fault | recovering
deriving DecidableEq, Repr

/-- Action of a condition, and the action level (R143). -/
inductive Action where
  | none | dim | lowOnly | fallback
deriving DecidableEq, Repr

/-- Report field of the Condition Table (R136). -/
inductive ReportAt where
  | never | alert | fault
deriving DecidableEq, Repr

/-- State of the upstream port (R152). -/
inductive PortState where
  | normal | warned | detached
deriving DecidableEq, Repr

/-- Action of a Filter Table entry (R156). -/
inductive FilterAction where
  | object | vehicle | passLeft | passRight | passBoth | discard
deriving DecidableEq, Repr

/-- Configuration state (chapter 10, opening). -/
inductive ConfigState where
  | run | config
deriving DecidableEq, Repr

/-- Reset cause (R166). -/
inductive ResetCause where
  | power | pin | restart
deriving DecidableEq, Repr

/-- Status of a reply (R164). -/
inductive Status where
  | done | refusedState | badArgument | badTable | busyCommit | unknownCommand
deriving DecidableEq, Repr

/-- The fourteen tables of the Table Store (R170). -/
inductive TableId where
  | curve | classPolicy | margin | window | derate | condition | vehicle | build
  | filter | segMap | modules | profile | mode | link
deriving DecidableEq, Repr

/-! ## Tables (R170 and the rules it names) -/

/-- One speed band of the Curve Table (R73): upper bound and nine swivel values, −b4 to b4. -/
structure CurveBand where
  bound : Nat
  values : Row 9 Int
deriving DecidableEq, Repr

/-- The Curve Table (R73). -/
structure CurveTable where
  b1 : Nat
  b2 : Nat
  b3 : Nat
  b4 : Nat
  bands : Row 8 CurveBand
deriving DecidableEq, Repr

/-- One row of the Class Policy table (R37). -/
structure ClassPolicy where
  minConfidence : Nat
  confirmScenes : Nat
  shadowTentative : Bool
  holdTime : Nat
  marginLeft : Nat
  marginRight : Nat
  marginTop : Nat
  gate : Nat
  shadowLevel : Nat
  hard : Bool
  priority : Nat
  growth : Nat
deriving DecidableEq, Repr

/-- One distance band of the Margin Table (R84). -/
structure MarginBand where
  bound : Nat
  extra : Nat
deriving DecidableEq, Repr

/-- The Margin Table (R84). -/
structure MarginTable where
  bands : Row 4 MarginBand
  absentExtra : Nat
deriving DecidableEq, Repr

/-- One entry of the Fixed Window table (R87). The mode set has the bit of weight 2ᵐ for mode code m (section 11.5). -/
structure FixedWindow where
  lamp : WindowLamp
  left : Int
  right : Int
  upper : Int
  lower : Int
  kind : WindowKind
  level : Nat
  modes : Byte
deriving DecidableEq, Repr

/-- One entry of the Condition Table (R136). -/
structure CondEntry where
  report : ReportAt
  persistence : Nat
  recovery : Nat
  latching : Bool
  action : Action
deriving DecidableEq, Repr

/-- The Vehicle Parameters table (section 1.6); the limits in the order of R3. -/
structure VehicleParams where
  speedLimit : Nat
  steerLimit : Nat
  pitchLimit : Nat
  requestLimit : Nat
  roadLimit : Nat
  weatherLimit : Nat
  speedSource : SourceChoice
  pulsesPerKm : Nat
  speedTimeout : Nat
  steerSource : SourceChoice
  countsPerDegree : Nat
  disagreeLimit : Nat
deriving DecidableEq, Repr

/-- The Build Parameters table (R91). -/
structure BuildParams where
  swivelStep : Nat
  upStep : Nat
  downStep : Nat
  dimLevel : Nat
  overtempBand : Nat
deriving DecidableEq, Repr

/-- One entry of the Filter Table (R156); codes and masks are ten-digit binary numbers. -/
structure FilterEntry where
  enabled : Bool
  code : BitVec 10
  mask : BitVec 10
  action : FilterAction
deriving DecidableEq, Repr

/-- One lamp's entry of the Segment Map (R71); a zone is true for HIGH. -/
structure SegMapEntry where
  origin : Int
  columnPitch : Nat
  rowCentre : Int
  rowPitch : Nat
  high : Row 96 Bool
deriving DecidableEq, Repr

/-- One entry of the Module Table (R101). -/
structure ModuleEntry where
  present : Bool
  firstRow : Nat
  rowCount : Nat
  firstColumn : Nat
  columnCount : Nat
deriving DecidableEq, Repr

/-- One profile (R72): for each lamp four rows of 24 levels, and an edge rule. -/
structure Profile where
  levels : Both (Row 4 (Row 24 Nat))
  edge : EdgeRule
deriving DecidableEq, Repr

/-- One mode's row of the Mode Table (R70). -/
structure ModeRow where
  profile : Fin 8
  shadowsApply : Bool
deriving DecidableEq, Repr

/-- The Mode Table (R70). -/
structure ModeTable where
  townSpeed : Nat
  motorwaySpeed : Nat
  hysteresis : Nat
  adverseThreshold : Nat
  townThreshold : Nat
  low : ModeRow
  town : ModeRow
  country : ModeRow
  motorway : ModeRow
  adverse : ModeRow
  full : ModeRow
deriving DecidableEq, Repr

/-- The Link Parameters table (R119). -/
structure LinkParams where
  pollPeriod : Nat
  replyTimeout : Nat
  missLimit : Nat
  insistent : Bool
  parkMode : ParkMode
  defaultMember : Member
  applyTimeout : Nat
  sceneTimeout : Nat
  buildPeriod : Nat
deriving DecidableEq, Repr

/-- One copy of every table (R170). -/
structure Tables where
  curve : CurveTable
  classPolicy : Row 6 ClassPolicy
  margin : MarginTable
  window : Row 4 FixedWindow
  derate : Row 8 Nat
  condition : Row 16 CondEntry
  vehicle : VehicleParams
  build : BuildParams
  filter : Row 16 FilterEntry
  segMap : Both SegMapEntry
  modules : Both (Row 4 ModuleEntry)
  profile : Row 8 Profile
  mode : ModeTable
  link : LinkParams
deriving DecidableEq, Repr

/-- The staging area (R170): a whole staged copy of zero or more live tables. -/
structure Staging where
  curve : Option CurveTable
  classPolicy : Option (Row 6 ClassPolicy)
  margin : Option MarginTable
  window : Option (Row 4 FixedWindow)
  derate : Option (Row 8 Nat)
  condition : Option (Row 16 CondEntry)
  vehicle : Option VehicleParams
  build : Option BuildParams
deriving DecidableEq, Repr

/-! ## Frames -/

/-- A frame in the upstream envelope, less its check value (section 9.1). -/
structure UpFrame where
  code : BitVec 10
  seq : BitVec 4
  last : Bool
  payload : List Byte
deriving DecidableEq, Repr

/-- A reply waiting in the Reply queue; `restart` marks the reply to RESTART (R177). -/
structure Reply where
  payload : List Byte
  restart : Bool
deriving DecidableEq, Repr

/-- A NOTICE in the Notice slot; `seq` is the sequence it keeps if it was cut and returned (R161). -/
structure Notice where
  payload : List Byte
  seq : Option (BitVec 4)
deriving DecidableEq, Repr

/-- A stream code and payload carried through the part: a FORWARDED frame's on the way down, a PASS_UP's on the way up
(R114, R160). -/
structure PassFrame where
  code : BitVec 10
  payload : List Byte
deriving DecidableEq, Repr

/-- What kind of frame the upstream transmitter has in hand (R161). -/
inductive UpTxKind where
  | reply (restart : Bool)
  | notice
  | passUp
deriving DecidableEq, Repr

/-- The frame in hand, or the held frame (R161). -/
structure UpTx where
  kind : UpTxKind
  frame : UpFrame
deriving DecidableEq, Repr

/-- A frame of the Pattern queue (R113). -/
inductive PatternFrame where
  | block (slot : Slot) (gen : Byte) (levels : List Nat)
  | apply (gen : Byte)
deriving DecidableEq, Repr

/-- A frame the part sends on a segment link (section 6.3). -/
inductive LinkFrame where
  | pattern (frame : PatternFrame)
  | forwarded (frame : PassFrame)
  | join (slot : Slot) (window : ModuleEntry)
  | poll (slot : Slot)
deriving DecidableEq, Repr

/-- A link's transmitter (R115); while SENDING, the frame and the sequence it carries. -/
inductive LinkTx where
  | idle
  | waking
  | sending (frame : LinkFrame) (seq : BitVec 4)
deriving DecidableEq, Repr

/-- One object report as SA keeps it (section 2.1). -/
structure Report where
  id : Byte
  cls : ObjClass
  confidence : Nat
  left : Int
  right : Int
  upper : Int
  lower : Option Int
  distance : Option Nat
deriving DecidableEq, Repr

/-- A scene SA hands to TU (R29). -/
structure Scene where
  number : Byte
  reports : List Report
  truncated : Bool
deriving DecidableEq, Repr

/-! ## VSB (chapter 1) -/

/-- A frame input of VSB (R1): value, time of its last update, freshness, staleness timer. -/
structure FrameInput (α : Type) where
  value : Option α
  updatedAt : Option Nat
  fresh : Bool
  timer : Timer
deriving DecidableEq, Repr

/-- A record field selected from its inputs (R14, R15). -/
structure RecordField (α : Type) where
  value : Option α
  source : FieldSource
  fresh : Bool
deriving DecidableEq, Repr

/-- The steering pin state (section 1.4), which RESTART keeps (R21). -/
structure SteerPin where
  counter : Int
  reference : Int
  referenced : Bool
  phaseErrors : Nat
  angle : Int
deriving DecidableEq, Repr

/-- The four raw values VSB reports (R16, R17). -/
structure VehicleRaws where
  speedStale : Bool
  steerStale : Bool
  requestStale : Bool
  disagree : Bool
deriving DecidableEq, Repr

/-- The Vehicle State Block. -/
structure Vsb where
  speedIn : FrameInput Nat
  steerIn : FrameInput Int
  pitch : FrameInput Int
  request : FrameInput BeamRequest
  road : FrameInput RoadClass
  weather : FrameInput Nat
  speed : RecordField Nat
  steer : RecordField Int
  lastEdge : Option Nat
  period : Option Nat
  pinSpeed : Nat
  spdTimer : Timer
  pin : SteerPin
  sent : VehicleRaws
  stats : Row 7 Nat
deriving DecidableEq, Repr

/-! ## SA (chapter 2) -/

/-- The scene in progress (chapter 2, opening). -/
structure SceneProgress where
  number : Byte
  expected : Nat
  kept : Nat
  overflow : Nat
  truncated : Bool
deriving DecidableEq, Repr

/-- The Scene Assembler; `progress` is none in IDLE. -/
structure Sa where
  progress : Option SceneProgress
  buffer : List Report
  lastScene : Option Byte
  timer : Timer
  stale : Bool
  handover : Bool
  stats : Row 11 Nat
deriving DecidableEq, Repr

/-! ## TU (chapter 3) -/

/-- A track record (R36); `hold` is its hold timer. -/
structure Track where
  state : TrackState
  cls : ObjClass
  id : Byte
  left : Int
  right : Int
  upper : Int
  lower : Option Int
  distance : Option Nat
  hits : Nat
  hold : Timer
  lastScene : Byte
deriving DecidableEq, Repr

/-- The Track Unit; an entry is none when FREE. -/
structure Tu where
  tracks : Row 24 (Option Track)
  stats : Row 14 Nat
deriving DecidableEq, Repr

/-! ## PB (chapters 4 and 5) -/

/-- The levels of both lamps, 96 each, in row-major order (00, Units and numbers). -/
abbrev Levels := Both (Row 96 Nat)

/-- What a build reads of one Module record (R65). -/
structure ModuleView where
  state : ModuleState
  band : Nat
  failed : List Nat
  treatedAbsent : Bool
deriving DecidableEq, Repr

/-- The value and freshness of one vehicle field, as a build takes it (R65). -/
structure Reading (α : Type) where
  value : Option α
  fresh : Bool
deriving DecidableEq, Repr

/-- Everything a build takes at its start (R65). -/
structure BuildInputs where
  speed : Reading Nat
  steer : Reading Int
  pitch : Reading Int
  request : Reading BeamRequest
  road : Reading RoadClass
  weather : Reading Nat
  tracks : Row 24 (Option Track)
  streetlights : Nat
  modules : Both (Row 4 ModuleView)
  action : Action
  config : ConfigState
  holdLow : Bool
  tables : Tables
  mode : Mode
  swivel : Int
  rowShift : Int
  previous : Levels
  latch : Option Byte
deriving DecidableEq, Repr

/-- The generation record (R99). -/
structure GenRecord where
  number : Byte
  mode : Mode
  swivel : Int
  rowShift : Int
  scene : Option Byte
  levels : Levels
deriving DecidableEq, Repr

/-- The Pattern Builder; `build` is the build in flight with the inputs it took, none while the flag is clear. -/
structure Pb where
  build : Option BuildInputs
  rebuild : Bool
  refresh : Timer
  latch : Option Byte
  mode : Mode
  swivel : Int
  rowShift : Int
  previous : Levels
  generation : Byte
  stats : Row 4 Nat
deriving DecidableEq, Repr

/-! ## SLC (chapter 6) -/

/-- A Module record (R102). `outstanding` holds the POLL or JOIN with the microsecond its reply timer is due.
`treatedAbsent` is set by a load that marks the slot not present, until the next set-up (R101). -/
structure ModuleRec where
  state : ModuleState
  misses : Nat
  band : Nat
  failed : List Nat
  selfFallback : Bool
  outstanding : Option (PollKind × Nat)
  treatedAbsent : Bool
deriving DecidableEq, Repr

/-- The four raw values of a link (R112). -/
structure LinkRaws where
  broken : Bool
  selfFallback : Bool
  segFailed : Bool
  overtemp : Bool
deriving DecidableEq, Repr

/-- A Segment Link Controller. -/
structure Slc where
  modules : Row 4 ModuleRec
  patternQ : List PatternFrame
  passQ : List PassFrame
  poll : Row 4 (Option PollKind)
  tx : LinkTx
  txSeq : BitVec 4
  lastGranted : Member
  lastServed : Slot
  pollTimer : Timer
  sent : LinkRaws
  stats : Row 13 Nat
deriving DecidableEq, Repr

/-! ## DU (chapter 7) -/

/-- The Delivery Unit. -/
structure Du where
  delivering : Option (GenRecord × Phase)
  waiting : Option GenRecord
  ackSet : List (Link × Slot)
  applyTimer : Timer
  applyDone : Both Bool
  applied : Option (Byte × Mode)
  noModules : Bool
  stats : Row 9 Nat
deriving DecidableEq, Repr

/-! ## CM (chapter 8) -/

/-- A Condition record (R135). The fields a kind does not have stay at their reset values. -/
structure CondRec where
  state : CondState
  raw : Bool
  rawLeft : Bool
  rawRight : Bool
  count : Nat
  persist : Timer
  recover : Timer
  faults : Nat
deriving DecidableEq, Repr

/-- The Condition Monitor. -/
structure Cm where
  recs : Row 16 CondRec
  action : Action
  appliedMode : Option Mode
  fbk : Bool
  latched : Row 16 Bool
  outstanding : Bool
  stats : Row 3 Nat
deriving DecidableEq, Repr

/-! ## UP (chapter 9) -/

/-- The Upstream Port. `rxFrom` is the microsecond from which the receiver takes up frame starts (R150, R154). -/
structure Up where
  port : PortState
  score : Nat
  recovery : Timer
  objectQ : List UpFrame
  vehicleQ : List UpFrame
  mgmtQ : List UpFrame
  replyQ : List Reply
  notice : Option Notice
  passUpQ : List PassFrame
  tx : Option UpTx
  held : Option UpTx
  txSeq : BitVec 4
  rxFrom : Nat
  stats : Row 19 Nat
deriving DecidableEq, Repr

/-! ## MU (chapter 10) -/

/-- The Management Unit. -/
structure Mu where
  config : ConfigState
  holdLow : Bool
  isolation : Bool
  tables : Tables
  staged : Staging
  commitPending : Bool
  tablesDefault : Bool
  cause : ResetCause
  strap : Fin 4
  restartPending : Bool
  stats : Row 4 Nat
deriving DecidableEq, Repr

/-! ## Mail: what one block has sent another and the other has not yet taken -/

/-- A raw report of a level condition (R135). -/
structure LevelReport where
  cond : Cond
  link : Option Link
  value : Bool
deriving DecidableEq, Repr

/-- What SA tells TU (R29, R31). -/
inductive ToTu where
  | aging
  | scene (scene : Scene)
deriving DecidableEq, Repr

/-- A BLOCK_ACK handed to DU (R120). -/
structure Ack where
  link : Link
  slot : Slot
  gen : Byte
deriving DecidableEq, Repr

/-- The latching fields of a Condition Table before and after it was replaced (R137). -/
structure LatchingChange where
  before : Row 16 Bool
  after : Row 16 Bool
deriving DecidableEq, Repr

/-- The messages on their way, oldest first in each list. -/
structure Mail where
  levels : List LevelReport
  events : List Cond
  toTu : List ToTu
  tears : List TearCause
  records : List GenRecord
  acks : List Ack
  broken : List (Link × Slot)
  vehicleParams : Nat
  classPolicy : Nat
  condTable : List LatchingChange
deriving DecidableEq, Repr

end Sys2Proof.Machine
end

