-- ==== Sys2Proof/Machine/Arith.lean ====
section
/-! DEFINITION. Arithmetic the rules share: rounding, clamping, saturating counts, byte order, the check value, and the
capacities the spec fixes. -/

namespace Sys2Proof.Machine

/-- A division rounded to the nearest integer, halves away from zero (00, Rounding). -/
def roundDiv (num : Int) (den : Nat) : Int :=
  if 0 ≤ num then ((2 * num.toNat + den) / (2 * den) : Nat)
  else -(((2 * (-num).toNat + den) / (2 * den) : Nat) : Int)

/-- A value held between two ends. -/
def clamp (lo hi x : Int) : Int :=
  if x < lo then lo else if hi < x then hi else x

/-- An integer lies in a range. -/
def within (lo hi x : Int) : Bool :=
  decide (lo ≤ x) && decide (x ≤ hi)

/-- A natural number lies in a range. -/
def natWithin (lo hi x : Nat) : Bool :=
  decide (lo ≤ x) && decide (x ≤ hi)

/-- A statistics counter one up; it stays at 65535 (00, Counters). -/
def bump (n : Nat) : Nat :=
  min 65535 (n + 1)

/-- One counter of a block's statistics one up. -/
def bumpAt {k : Nat} (i : Fin k) (stats : Row k Nat) : Row k Nat :=
  stats.modify i bump

/-- Microseconds in so many milliseconds. -/
def msToUs (ms : Nat) : Nat :=
  ms * 1000

/-- The high byte, then the low byte of a number of two bytes (11, opening paragraph). -/
def bytes2 (n : Nat) : List Byte :=
  [BitVec.ofNat 8 (n / 256), BitVec.ofNat 8 n]

/-- One byte of a natural number. -/
def byte1 (n : Nat) : List Byte :=
  [BitVec.ofNat 8 n]

/-- One byte of a signed number, in two's complement. -/
def sbyte1 (n : Int) : List Byte :=
  [BitVec.ofInt 8 n]

/-- Two bytes of a signed number, in two's complement, high byte first. -/
def sbytes2 (n : Int) : List Byte :=
  bytes2 (BitVec.ofInt 16 n).toNat

/-- A yes/no item (11, opening paragraph). -/
def flag1 (b : Bool) : List Byte :=
  [if b then 1 else 0]

/-- Byte `i` of a list as a number; positions past the end are never asked for where a length check stands before. -/
def u8 (bs : List Byte) (i : Nat) : Nat :=
  (bs.getD i 0).toNat

/-- Two bytes from position `i` as an unsigned number. -/
def u16 (bs : List Byte) (i : Nat) : Nat :=
  u8 bs i * 256 + u8 bs (i + 1)

/-- Byte `i` as a signed number. -/
def s8 (bs : List Byte) (i : Nat) : Int :=
  (bs.getD i 0).toInt

/-- Two bytes from position `i` as a signed number. -/
def s16 (bs : List Byte) (i : Nat) : Int :=
  (BitVec.ofNat 16 (u16 bs i)).toInt

/-- One binary digit of the check value's division (section 11.1): generator x¹⁶ + x¹² + x⁵ + 1. -/
def crcBit (crc : BitVec 16) : BitVec 16 :=
  if crc.msb then (crc <<< 1) ^^^ 0x1021#16 else crc <<< 1

/-- One byte of the check value, most significant bit first. -/
def crcByte (crc : BitVec 16) (b : Byte) : BitVec 16 :=
  crcBit (crcBit (crcBit (crcBit (crcBit (crcBit (crcBit (crcBit
    (crc ^^^ (b.setWidth 16 <<< 8)))))))))

/-- The check value of a run of bytes (section 11.1): starting value 65535, no final inversion. -/
def checkValue (bs : List Byte) : BitVec 16 :=
  bs.foldl crcByte 0xFFFF#16

/-- The two check bytes of a run of bytes, high byte first. -/
def checkBytes (bs : List Byte) : List Byte :=
  bytes2 (checkValue bs).toNat

/-! ## Capacities and fixed numbers -/

/-- Capacity of the Object queue (R157). -/
def objectCapacity : Nat := 24

/-- Capacity of the Vehicle queue (R157). -/
def vehicleCapacity : Nat := 4

/-- Capacity of the Management queue (R155). -/
def managementCapacity : Nat := 4

/-- Capacity of the Reply queue (R165). -/
def replyCapacity : Nat := 4

/-- Capacity of the Pass-Up queue (R160). -/
def passUpCapacity : Nat := 8

/-- Capacity of a link's Pass queue (R114). -/
def passCapacity : Nat := 8

/-- Capacity of the Scene Assembly Buffer (R27). -/
def bufferCapacity : Nat := 32

/-- The longest payload: bytes on the upstream port, 16-bit words on a segment link (R150, R104). -/
def maxPayload : Nat := 32

/-- The recovery interval of a DETACHED port, in ms (R153). -/
def recoveryInterval : Nat := 100

/-- Vendor code, part code and revision (R166). -/
def vendorCode : Nat := 2311

/-- Part code (R166). -/
def partCode : Nat := 24

/-- Revision (R166). -/
def revisionCode : Nat := 3

end Sys2Proof.Machine
end

