-- ==== Sys2Proof/Machine/Defaults.lean ====
section
/-! DEFINITION. The built-in contents of the fourteen tables, in force after power-on and the reset pin (R170, R178). -/

namespace Sys2Proof.Machine

/-- A default Curve band (R73): the values at b1 to b4, mirrored with the opposite sign, and 0 at the point 0. -/
def mirroredBand (bound : Nat) (v1 v2 v3 v4 : Int) : CurveBand :=
  { bound := bound, values := ⟨[-v4, -v3, -v2, -v1, 0, v1, v2, v3, v4], rfl⟩ }

/-- The built-in Curve Table (R73). -/
def builtInCurve : CurveTable :=
  { b1 := 300, b2 := 900, b3 := 1800, b4 := 3600
    bands := ⟨[mirroredBand 300 20 60 120 150, mirroredBand 500 20 60 110 140, mirroredBand 700 25 70 110 130,
      mirroredBand 900 30 75 100 120, mirroredBand 1100 35 70 90 100, mirroredBand 1300 35 60 80 90,
      mirroredBand 1600 30 50 60 70, mirroredBand 2000 25 40 50 60], rfl⟩ }

/-- A Class Policy row from the columns of R37's table of defaults. -/
def policyRow (minConf confirm : Nat) (tentative : Bool) (hold l r t gate level : Nat) (hard : Bool)
    (priority growth : Nat) : ClassPolicy :=
  { minConfidence := minConf, confirmScenes := confirm, shadowTentative := tentative, holdTime := hold
    marginLeft := l, marginRight := r, marginTop := t, gate := gate, shadowLevel := level, hard := hard
    priority := priority, growth := growth }

/-- The built-in Class Policy table (R37). -/
def builtInClassPolicy : Row 6 ClassPolicy :=
  ⟨[policyRow 3 1 true 600 10 10 10 20 0 true 7 6,
    policyRow 4 2 false 1500 8 8 8 15 0 true 6 2,
    policyRow 3 1 true 800 12 12 10 20 0 true 5 5,
    policyRow 6 2 false 500 10 10 5 10 90 false 3 2,
    policyRow 8 3 false 300 5 5 5 10 60 false 2 0,
    policyRow 8 3 false 300 0 0 0 10 255 false 1 0], rfl⟩

/-- The built-in Margin Table (R84). -/
def builtInMargin : MarginTable :=
  { bands := ⟨[⟨50, 30⟩, ⟨150, 16⟩, ⟨400, 8⟩, ⟨1000, 4⟩], rfl⟩, absentExtra := 20 }

/-- A built-in Fixed Window entry (R87): acts in no mode. -/
def builtInWindow : FixedWindow :=
  { lamp := .both, left := 0, right := 0, upper := 0, lower := 0, kind := .cap, level := 255, modes := 0 }

/-- The built-in Derate Table (R90). -/
def builtInDerate : Row 8 Nat :=
  ⟨[255, 255, 255, 255, 230, 190, 140, 80], rfl⟩

/-- The built-in Condition Table (R136). -/
def builtInCondition : Row 16 CondEntry :=
  ⟨[⟨.fault, 300, 1000, false, .dim⟩, ⟨.alert, 10, 2000, false, .none⟩, ⟨.alert, 5, 2000, false, .none⟩,
    ⟨.alert, 5, 2000, false, .none⟩, ⟨.alert, 500, 500, false, .none⟩, ⟨.alert, 500, 1000, false, .none⟩,
    ⟨.fault, 1000, 500, false, .lowOnly⟩, ⟨.alert, 1000, 1000, false, .none⟩, ⟨.fault, 0, 0, true, .lowOnly⟩,
    ⟨.alert, 2000, 1000, false, .none⟩, ⟨.fault, 0, 0, true, .none⟩, ⟨.alert, 1000, 5000, false, .none⟩,
    ⟨.fault, 3, 2000, false, .dim⟩, ⟨.fault, 500, 500, false, .fallback⟩, ⟨.fault, 0, 1000, false, .dim⟩,
    ⟨.alert, 1, 1000, false, .none⟩], rfl⟩

/-- The built-in Vehicle Parameters (R3, section 1.6). -/
def builtInVehicle : VehicleParams :=
  { speedLimit := 300, steerLimit := 100, pitchLimit := 1000, requestLimit := 500, roadLimit := 2000
    weatherLimit := 2000, speedSource := .frameElsePin, pulsesPerKm := 8000, speedTimeout := 1000
    steerSource := .frameElsePin, countsPerDegree := 12, disagreeLimit := 150 }

/-- The built-in Build Parameters (R91). -/
def builtInBuild : BuildParams :=
  { swivelStep := 8, upStep := 16, downStep := 64, dimLevel := 40, overtempBand := 6 }

/-- A Filter Table entry that is not enabled (R156). -/
def filterOff : FilterEntry :=
  { enabled := false, code := 0, mask := 0, action := .discard }

/-- The built-in Filter Table (R156). -/
def builtInFilter : Row 16 FilterEntry :=
  ⟨[⟨true, 256, 1008, .object⟩, ⟨true, 128, 1020, .vehicle⟩, filterOff, filterOff, filterOff, filterOff, filterOff,
    filterOff, filterOff, filterOff, filterOff, filterOff, filterOff, filterOff, filterOff, filterOff], rfl⟩

/-- A built-in Segment Map entry (R71): rows 0 and 1 are HIGH. -/
def builtInSegMapEntry (origin : Int) : SegMapEntry :=
  { origin := origin, columnPitch := 24, rowCentre := 30, rowPitch := 20
    high := Row.tabulate fun i => decide (i.val < 48) }

/-- The built-in Segment Map (R71). -/
def builtInSegMap : Both SegMapEntry :=
  { left := builtInSegMapEntry (-276), right := builtInSegMapEntry (-270) }

/-- A Module Table entry that is not present; its other bytes are 0 (assumption 19). -/
def moduleAbsent : ModuleEntry :=
  { present := false, firstRow := 0, rowCount := 0, firstColumn := 0, columnCount := 0 }

/-- One link's built-in Module Table entries (R101). -/
def builtInModuleRows : Row 4 ModuleEntry :=
  ⟨[⟨true, 0, 2, 0, 24⟩, ⟨true, 2, 2, 0, 24⟩, moduleAbsent, moduleAbsent], rfl⟩

/-- A profile row of one level in columns 0–5 and 18–23 and another in columns 6–17 (R72). -/
def profileRow (outer centre : Nat) : Row 24 Nat :=
  Row.tabulate fun c => if decide (6 ≤ c.val) && decide (c.val ≤ 17) then centre else outer

/-- A built-in profile: the same rows for both lamps, EDGE_HOLD (R72). -/
def builtInProfileOf (r0 r1 r2 r3 : Row 24 Nat) : Profile :=
  { levels := { left := ⟨[r0, r1, r2, r3], rfl⟩, right := ⟨[r0, r1, r2, r3], rfl⟩ }, edge := .hold }

/-- The built-in profile 0, the fallback pattern (R72). -/
def builtInProfile0 : Profile :=
  builtInProfileOf (profileRow 0 0) (profileRow 0 0) (profileRow 200 200) (profileRow 200 200)

/-- The built-in Profile Table (R72). -/
def builtInProfile : Row 8 Profile :=
  ⟨[builtInProfile0,
    builtInProfileOf (profileRow 0 0) (profileRow 60 100) (profileRow 220 220) (profileRow 220 220),
    builtInProfileOf (profileRow 160 255) (profileRow 200 255) (profileRow 200 220) (profileRow 200 200),
    builtInProfileOf (profileRow 120 255) (profileRow 160 255) (profileRow 180 200) (profileRow 180 180),
    builtInProfileOf (profileRow 0 0) (profileRow 80 120) (profileRow 220 220) (profileRow 220 220),
    builtInProfileOf (profileRow 255 255) (profileRow 255 255) (profileRow 255 255) (profileRow 255 255),
    builtInProfile0, builtInProfile0], rfl⟩

/-- The built-in Mode Table (R70). -/
def builtInMode : ModeTable :=
  { townSpeed := 400, motorwaySpeed := 600, hysteresis := 50, adverseThreshold := 5, townThreshold := 3
    low := ⟨0, false⟩, town := ⟨1, true⟩, country := ⟨2, true⟩, motorway := ⟨3, true⟩, adverse := ⟨4, true⟩
    full := ⟨5, false⟩ }

/-- The built-in Link Parameters (R119). -/
def builtInLink : LinkParams :=
  { pollPeriod := 100, replyTimeout := 5, missLimit := 3, insistent := true, parkMode := .defaultMember
    defaultMember := .pattern, applyTimeout := 10, sceneTimeout := 150, buildPeriod := 40 }

/-- Every table at its built-in contents. -/
def builtInTables : Tables :=
  { curve := builtInCurve, classPolicy := builtInClassPolicy, margin := builtInMargin
    window := Row.fill 4 builtInWindow, derate := builtInDerate, condition := builtInCondition
    vehicle := builtInVehicle, build := builtInBuild, filter := builtInFilter, segMap := builtInSegMap
    modules := { left := builtInModuleRows, right := builtInModuleRows }, profile := builtInProfile
    mode := builtInMode, link := builtInLink }

/-- A staging area that holds no copy (R170). -/
def emptyStaging : Staging :=
  { curve := none, classPolicy := none, margin := none, window := none, derate := none, condition := none
    vehicle := none, build := none }

end Sys2Proof.Machine
end

