-- ==== Sys2Proof/Machine/Codes.lean ====
section
/-! DEFINITION. The codes of enumerated fields (section 11.6) and the numbering of conditions, classes and tables. -/

namespace Sys2Proof.Machine

/-! ## Conditions (section 8.1) -/

/-- The sixteen conditions in the order of their numbers. -/
def allConds : List Cond :=
  [.perceptionStale, .sceneTorn, .objectOverrun, .trackTableFull, .speedStale, .steerStale, .requestStale,
   .steerDisagree, .moduleBroken, .moduleSelfFallback, .segmentFailed, .overtemp, .applyAbandoned, .noModules,
   .linkDetached, .tableRejected]

/-- A condition's number. -/
def condNo : Cond → Fin 16
  | .perceptionStale => 0
  | .sceneTorn => 1
  | .objectOverrun => 2
  | .trackTableFull => 3
  | .speedStale => 4
  | .steerStale => 5
  | .requestStale => 6
  | .steerDisagree => 7
  | .moduleBroken => 8
  | .moduleSelfFallback => 9
  | .segmentFailed => 10
  | .overtemp => 11
  | .applyAbandoned => 12
  | .noModules => 13
  | .linkDetached => 14
  | .tableRejected => 15

/-- The condition of a number, or none above 15. -/
def condOf (n : Nat) : Option Cond :=
  allConds[n]?

/-- A condition's kind (section 8.1). -/
def condKind : Cond → CondKind
  | .sceneTorn | .objectOverrun | .trackTableFull | .applyAbandoned | .tableRejected => .event
  | .perceptionStale | .speedStale | .steerStale | .requestStale | .steerDisagree | .moduleBroken
  | .moduleSelfFallback | .segmentFailed | .overtemp | .noModules | .linkDetached => .level

/-- Whether a condition is raised by each link on its own (R135, conditions 8 to 11). -/
def condPerLink : Cond → Bool
  | .moduleBroken | .moduleSelfFallback | .segmentFailed | .overtemp => true
  | .perceptionStale | .sceneTorn | .objectOverrun | .trackTableFull | .speedStale | .steerStale | .requestStale
  | .steerDisagree | .applyAbandoned | .noModules | .linkDetached | .tableRejected => false

/-! ## Classes -/

/-- A class's code, which is its row in the Class Policy table (R170). -/
def classNo : ObjClass → Fin 6
  | .oncoming => 0
  | .preceding => 1
  | .twoWheeler => 2
  | .pedestrian => 3
  | .sign => 4
  | .streetlight => 5

/-- The class of a code; 6 and 7 have no meaning. -/
def classOf : Nat → Option ObjClass
  | 0 => some .oncoming
  | 1 => some .preceding
  | 2 => some .twoWheeler
  | 3 => some .pedestrian
  | 4 => some .sign
  | 5 => some .streetlight
  | _ => none

/-! ## Enumerated fields with codes in section 11.6 -/

/-- Yes/no: 0 for no, 1 for yes. -/
def boolOf : Nat → Option Bool
  | 0 => some false
  | 1 => some true
  | _ => none

/-- Beam request. -/
def requestNo : BeamRequest → Nat
  | .off => 0
  | .low => 1
  | .highAuto => 2
  | .full => 3
  | .flash => 4

/-- Beam request of a code. -/
def requestOf : Nat → Option BeamRequest
  | 0 => some .off
  | 1 => some .low
  | 2 => some .highAuto
  | 3 => some .full
  | 4 => some .flash
  | _ => none

/-- Road class. -/
def roadNo : RoadClass → Nat
  | .urban => 0
  | .rural => 1
  | .motorway => 2

/-- Road class of a code. -/
def roadOf : Nat → Option RoadClass
  | 0 => some .urban
  | 1 => some .rural
  | 2 => some .motorway
  | _ => none

/-- Mode. -/
def modeNo : Mode → Fin 8
  | .off => 0
  | .low => 1
  | .town => 2
  | .country => 3
  | .motorway => 4
  | .adverse => 5
  | .full => 6
  | .fallback => 7

/-- Condition state. -/
def condStateNo : CondState → Nat
  | .clear => 0
  | .alert => 1
  | .fault => 2
  | .recovering => 3

/-- Track state. -/
def trackStateNo : TrackState → Nat
  | .tentative => 0
  | .confirmed => 1
  | .coasting => 2

/-- Action and action level. -/
def actionNo : Action → Nat
  | .none => 0
  | .dim => 1
  | .lowOnly => 2
  | .fallback => 3

/-- Action of a code. -/
def actionOf : Nat → Option Action
  | 0 => some .none
  | 1 => some .dim
  | 2 => some .lowOnly
  | 3 => some .fallback
  | _ => none

/-- Report field. -/
def reportNo : ReportAt → Nat
  | .never => 0
  | .alert => 1
  | .fault => 2

/-- Report field of a code. -/
def reportOf : Nat → Option ReportAt
  | 0 => some .never
  | 1 => some .alert
  | 2 => some .fault
  | _ => none

/-- Link. -/
def linkNo : Link → Nat
  | .left => 0
  | .right => 1

/-- Link of a code. -/
def linkOf : Nat → Option Link
  | 0 => some .left
  | 1 => some .right
  | _ => none

/-- Window lamp. -/
def windowLampNo : WindowLamp → Nat
  | .left => 0
  | .right => 1
  | .both => 2

/-- Window lamp of a code. -/
def windowLampOf : Nat → Option WindowLamp
  | 0 => some .left
  | 1 => some .right
  | 2 => some .both
  | _ => none

/-- Window kind. -/
def windowKindNo : WindowKind → Nat
  | .cap => 0
  | .floor => 1

/-- Window kind of a code. -/
def windowKindOf : Nat → Option WindowKind
  | 0 => some .cap
  | 1 => some .floor
  | _ => none

/-- Filter action. -/
def filterActionNo : FilterAction → Nat
  | .object => 0
  | .vehicle => 1
  | .passLeft => 2
  | .passRight => 3
  | .passBoth => 4
  | .discard => 5

/-- Filter action of a code. -/
def filterActionOf : Nat → Option FilterAction
  | 0 => some .object
  | 1 => some .vehicle
  | 2 => some .passLeft
  | 3 => some .passRight
  | 4 => some .passBoth
  | 5 => some .discard
  | _ => none

/-- Source choice. -/
def sourceNo : SourceChoice → Nat
  | .frame => 0
  | .pin => 1
  | .frameElsePin => 2

/-- Source choice of a code. -/
def sourceOf : Nat → Option SourceChoice
  | 0 => some .frame
  | 1 => some .pin
  | 2 => some .frameElsePin
  | _ => none

/-- A record field's source, by the codes of the source choice (assumption 11). -/
def fieldSourceNo : FieldSource → Nat
  | .frame => 0
  | .pin => 1

/-- Edge rule. -/
def edgeNo : EdgeRule → Nat
  | .hold => 0
  | .dark => 1

/-- Edge rule of a code. -/
def edgeOf : Nat → Option EdgeRule
  | 0 => some .hold
  | 1 => some .dark
  | _ => none

/-- Park mode. -/
def parkNo : ParkMode → Nat
  | .lastMember => 0
  | .defaultMember => 1

/-- Park mode of a code. -/
def parkOf : Nat → Option ParkMode
  | 0 => some .lastMember
  | 1 => some .defaultMember
  | _ => none

/-- Member. -/
def memberNo : Member → Nat
  | .pattern => 0
  | .pass => 1
  | .pollGroup => 2

/-- Member of a code. -/
def memberOf : Nat → Option Member
  | 0 => some .pattern
  | 1 => some .pass
  | 2 => some .pollGroup
  | _ => none

/-- Status of a reply (section 11.3). -/
def statusNo : Status → Nat
  | .done => 0
  | .refusedState => 1
  | .badArgument => 2
  | .badTable => 3
  | .busyCommit => 4
  | .unknownCommand => 5

/-! ## Tables (R170, section 11.5) -/

/-- The fourteen tables in the order of their ids. -/
def allTables : List TableId :=
  [.curve, .classPolicy, .margin, .window, .derate, .condition, .vehicle, .build, .filter, .segMap, .modules,
   .profile, .mode, .link]

/-- A table's id. -/
def tableNo : TableId → Nat
  | .curve => 0
  | .classPolicy => 1
  | .margin => 2
  | .window => 3
  | .derate => 4
  | .condition => 5
  | .vehicle => 6
  | .build => 7
  | .filter => 8
  | .segMap => 9
  | .modules => 10
  | .profile => 11
  | .mode => 12
  | .link => 13

/-- The table of an id; none above 13. -/
def tableOf (n : Nat) : Option TableId :=
  allTables[n]?

/-- Whether a table is live (true) or structural (R170). -/
def tableLive (t : TableId) : Bool :=
  decide (tableNo t < 8)

/-- How many entries a table has (R170). -/
def entryCount : TableId → Nat
  | .curve => 9
  | .classPolicy => 6
  | .margin => 5
  | .window => 4
  | .derate => 8
  | .condition => 16
  | .vehicle => 1
  | .build => 1
  | .filter => 16
  | .segMap => 2
  | .modules => 8
  | .profile => 72
  | .mode => 7
  | .link => 1

/-- The size of one entry in bytes (section 11.5). -/
def entrySize : TableId → Nat
  | .curve => 20
  | .classPolicy => 13
  | .margin => 3
  | .window => 10
  | .derate => 1
  | .condition => 7
  | .vehicle => 21
  | .build => 5
  | .filter => 6
  | .segMap => 17
  | .modules => 5
  | .profile => 24
  | .mode => 7
  | .link => 11

/-- Entries per frame (R171): 28 divided by the entry size, and never more than the table has. -/
def entriesPerFrame (t : TableId) : Nat :=
  min (28 / entrySize t) (entryCount t)

end Sys2Proof.Machine
end

