-- ==== Sys2Proof/Machine/Geometry.lean ====
section
/-! DEFINITION. Where segments lie: rows, columns and windows (00, Units and numbers; R89, R101), column and row spans
(R71), coverage by a box (R85) and the lamp field (R43). Half pitches are exact, so spans are kept doubled. -/

namespace Sys2Proof.Machine

/-- A segment of a lamp by its index, row × 24 + column. -/
abbrev SegNo := Fin 96

/-- The row of a segment. -/
def segRow (i : SegNo) : Nat := i.val / 24

/-- The column of a segment. -/
def segColumn (i : SegNo) : Nat := i.val % 24

/-- How many segments a window holds (R101). -/
def windowSize (e : ModuleEntry) : Nat :=
  e.rowCount * e.columnCount

/-- Whether a slot's window holds a segment, by its Module Table entry (R89). -/
def windowHolds (e : ModuleEntry) (i : SegNo) : Bool :=
  decide (e.firstRow ≤ segRow i) && decide (segRow i < e.firstRow + e.rowCount)
    && decide (e.firstColumn ≤ segColumn i) && decide (segColumn i < e.firstColumn + e.columnCount)

/-- The segment of window index `i` (R89): row-major from the window's top-left corner; an index at or above the
number of segments in the window names none. -/
def windowSegment (e : ModuleEntry) (i : Nat) : Option SegNo :=
  if i < windowSize e then
    let n := (e.firstRow + i / e.columnCount) * 24 + (e.firstColumn + i % e.columnCount)
    if h : n < 96 then some ⟨n, h⟩ else none
  else none

/-- The segments of a window in window order (R125). -/
def windowSegments (e : ModuleEntry) : List SegNo :=
  (List.range (windowSize e)).filterMap (windowSegment e)

/-- Whether two windows share a segment (R174). -/
def windowsOverlap (a b : ModuleEntry) : Bool :=
  decide (a.firstRow < b.firstRow + b.rowCount) && decide (b.firstRow < a.firstRow + a.rowCount)
    && decide (a.firstColumn < b.firstColumn + b.columnCount)
    && decide (b.firstColumn < a.firstColumn + a.columnCount)

/-- A box of angles (R83, R87); the lower edge may be absent. -/
structure AngleBox where
  left : Int
  right : Int
  upper : Int
  lower : Option Int
deriving DecidableEq, Repr

/-- Twice the included left end of a column's span (R71). -/
def columnLo2 (g : SegMapEntry) (c : Nat) : Int :=
  2 * (g.origin + (c * g.columnPitch : Nat)) - g.columnPitch

/-- Twice the excluded right end of a column's span (R71). -/
def columnHi2 (g : SegMapEntry) (c : Nat) : Int :=
  2 * (g.origin + (c * g.columnPitch : Nat)) + g.columnPitch

/-- Twice the included lower end of a row's span (R71). -/
def rowLo2 (g : SegMapEntry) (r : Nat) : Int :=
  2 * (g.rowCentre - (r * g.rowPitch : Nat)) - g.rowPitch

/-- Twice the excluded upper end of a row's span (R71). -/
def rowHi2 (g : SegMapEntry) (r : Nat) : Int :=
  2 * (g.rowCentre - (r * g.rowPitch : Nat)) + g.rowPitch

/-- Whether a box's lower edge, if it has one, is below the span's excluded upper end (R85). -/
def lowerReaches (lower : Option Int) (hi2 : Int) : Bool :=
  match lower with
  | none => true
  | some y => decide (2 * y < hi2)

/-- Whether a box covers a segment of the lamp with this Segment Map entry (R85). -/
def covers (g : SegMapEntry) (b : AngleBox) (i : SegNo) : Bool :=
  decide (2 * b.left < columnHi2 g (segColumn i)) && decide (columnLo2 g (segColumn i) ≤ 2 * b.right)
    && decide (rowLo2 g (segRow i) ≤ 2 * b.upper) && lowerReaches b.lower (rowHi2 g (segRow i))

/-- Twice the included left edge of the lamp field (R43). -/
def fieldLeft2 (m : Both SegMapEntry) : Int :=
  min (columnLo2 m.left 0) (columnLo2 m.right 0)

/-- Twice the excluded right edge of the lamp field (R43). -/
def fieldRight2 (m : Both SegMapEntry) : Int :=
  max (columnHi2 m.left 23) (columnHi2 m.right 23)

/-- Whether a box from `left` to `right` lies wholly outside the lamp field (R43). -/
def whollyOutside (m : Both SegMapEntry) (left right : Int) : Bool :=
  decide (2 * right < fieldLeft2 m) || decide (fieldRight2 m ≤ 2 * left)

end Sys2Proof.Machine
end

