-- ==== Sys2Proof/Machine/Flags.lean ====
section
/-! DEFINITION. Everything a block works out from what it holds and reports as a value: the source selection of VSB
(R14, R15), the pin speed and angle (R6, R11), the raw values of VSB and of the links (R16, R17, R112), a condition's
raw value (R135) and the action level (R143). -/

namespace Sys2Proof.Machine

/-! ## VSB -/

/-- The pin speed from a captured period in µs and the pulses per km (R6). -/
def pinSpeedOf (period pulses : Nat) : Nat :=
  if 1000000 < period then 0
  else min 2000 (roundDiv 36000000000 (period * pulses)).toNat

/-- The pin angle from counter, reference and counts per degree (R11). -/
def pinAngleOf (counter reference : Int) (countsPerDegree : Nat) : Int :=
  clamp (-7200) 7200 (roundDiv ((counter - reference) * 10) countsPerDegree)

/-- The record field a frame input gives (R14, R15). -/
def frameField {α : Type} (i : FrameInput α) : RecordField α :=
  { value := i.value, source := .frame, fresh := i.fresh }

/-- The record field a pin value gives: always fresh (R14, R15). -/
def pinField {α : Type} (x : α) : RecordField α :=
  { value := some x, source := .pin, fresh := true }

/-- The speed record field (R14). -/
def selectSpeed (p : VehicleParams) (v : Vsb) : RecordField Nat :=
  match p.speedSource with
  | .frame => frameField v.speedIn
  | .pin => pinField v.pinSpeed
  | .frameElsePin => if v.speedIn.fresh then frameField v.speedIn else pinField v.pinSpeed

/-- The steering record field (R15). -/
def selectSteer (p : VehicleParams) (v : Vsb) : RecordField Int :=
  match p.steerSource with
  | .frame => frameField v.steerIn
  | .pin => if v.pin.referenced then pinField v.pin.angle else { value := none, source := .pin, fresh := false }
  | .frameElsePin =>
    if v.steerIn.fresh then frameField v.steerIn
    else if v.pin.referenced then pinField v.pin.angle
    else frameField v.steerIn

/-- The raw value of STEER_DISAGREE (R16). -/
def disagreeRaw (p : VehicleParams) (v : Vsb) : Bool :=
  match v.steerIn.value with
  | none => false
  | some a => v.steerIn.fresh && v.pin.referenced && decide ((p.disagreeLimit : Int) < |a - v.pin.angle|)

/-- The four raw values of VSB as they stand (R16, R17). -/
def vehicleRaws (p : VehicleParams) (v : Vsb) : VehicleRaws :=
  { speedStale := !v.speed.fresh, steerStale := !v.steer.fresh, requestStale := !v.request.fresh
    disagree := disagreeRaw p v }

/-- The age in ms of a frame input (R1): 65535 before any update, and no more than that. -/
def ageOf {α : Type} (now : Nat) (i : FrameInput α) : Nat :=
  match i.updatedAt with
  | none => 65535
  | some t => min 65535 ((now - t) / 1000)

/-- The age of a record field (R1, R15): 0 from the pin, the frame input's otherwise. -/
def fieldAge {α : Type} (now : Nat) (f : RecordField α) (i : FrameInput α) : Nat :=
  match f.source with
  | .pin => 0
  | .frame => ageOf now i

/-! ## SLC -/

/-- A Module record's state as every block reads it (R101): ABSENT from a load that marked its slot not present to
the next set-up. -/
def effState (m : ModuleRec) : ModuleState :=
  if m.treatedAbsent then .absent else m.state

/-- Whether a window index names a LOW-zone segment of a window (R112). -/
def failsLowZone (g : SegMapEntry) (e : ModuleEntry) (i : Nat) : Bool :=
  match windowSegment e i with
  | none => false
  | some n => !g.high.get n

/-- The four slots in address order. -/
def allSlots : List Slot := [0, 1, 2, 3]

/-- The four raw values of a link (R112). -/
def linkRaws (t : Tables) (l : Link) (modules : Row 4 ModuleRec) : LinkRaws :=
  let live := allSlots.filter fun k => effState (modules.get k) != .absent
  { broken := allSlots.any fun k => effState (modules.get k) == .broken
    selfFallback := live.any fun k => (modules.get k).selfFallback
    segFailed := live.any fun k =>
      (modules.get k).failed.any (failsLowZone (t.segMap.get l) ((t.modules.get l).get k))
    overtemp := live.any fun k => decide (t.build.overtempBand ≤ (modules.get k).band) }

/-! ## CM -/

/-- A level condition's raw value (R135): for conditions 8 to 11, true while either link's is. -/
def condRaw (c : Cond) (r : CondRec) : Bool :=
  if condPerLink c then r.rawLeft || r.rawRight else r.raw

/-- The higher of two actions, in the order NONE, DIM, LOW_ONLY, FALLBACK (R143). -/
def higherAction (a b : Action) : Action :=
  if actionNo a < actionNo b then b else a

/-- The action level: the highest action among the conditions in FAULT (R143). -/
def actionLevel (table : Row 16 CondEntry) (recs : Row 16 CondRec) : Action :=
  allConds.foldl
    (fun a c => if (recs.get (condNo c)).state = .fault then higherAction a (table.get (condNo c)).action else a)
    .none

end Sys2Proof.Machine
end

