-- ==== Sys2Proof/Machine/Stats.lean ====
section
/-! DEFINITION. The names of the statistics counters: each is its place in its block's table of statistics, from 0, as
READ_STATISTICS numbers them (R168). -/

namespace Sys2Proof.Machine.Stat

/-! ## Vehicle (VSB, R20) -/

/-- VEH_FRAMES_TAKEN. -/
def vehFramesTaken : Fin 7 := 0

/-- VEH_FRAMES_REJECTED. -/
def vehFramesRejected : Fin 7 := 1

/-- SPD_GLITCHES. -/
def spdGlitches : Fin 7 := 2

/-- SPD_TIMEOUTS. -/
def spdTimeouts : Fin 7 := 3

/-- STEER_PHASE_ERRORS. -/
def steerPhaseErrors : Fin 7 := 4

/-- STEER_SATURATIONS. -/
def steerSaturations : Fin 7 := 5

/-- STEER_AUTO_REFS. -/
def steerAutoRefs : Fin 7 := 6

/-! ## Scene (SA, section 2.8) -/

/-- OBJ_FRAMES_TAKEN. -/
def objFramesTaken : Fin 11 := 0

/-- OBJ_FRAMES_MALFORMED. -/
def objFramesMalformed : Fin 11 := 1

/-- OBJ_FRAMES_ORPHAN. -/
def objFramesOrphan : Fin 11 := 2

/-- REPORTS_INVALID. -/
def reportsInvalid : Fin 11 := 3

/-- REPORTS_DUPLICATE. -/
def reportsDuplicate : Fin 11 := 4

/-- REPORTS_OVERFLOW. -/
def reportsOverflow : Fin 11 := 5

/-- SCENES_TAKEN. -/
def scenesTaken : Fin 11 := 6

/-- SCENES_TRUNCATED. -/
def scenesTruncated : Fin 11 := 7

/-- SCENES_TORN. -/
def scenesTorn : Fin 11 := 8

/-- SCENE_TIMEOUTS. -/
def sceneTimeouts : Fin 11 := 9

/-- SCENE_GAPS. -/
def sceneGaps : Fin 11 := 10

/-! ## Track (TU, R60) -/

/-- TRK_SCENES. -/
def trkScenes : Fin 14 := 0

/-- TRK_LOW_CONFIDENCE. -/
def trkLowConfidence : Fin 14 := 1

/-- TRK_ID_MATCHES. -/
def trkIdMatches : Fin 14 := 2

/-- TRK_OVERLAP_MATCHES. -/
def trkOverlapMatches : Fin 14 := 3

/-- TRK_CREATED. -/
def trkCreated : Fin 14 := 4

/-- TRK_REPLACED. -/
def trkReplaced : Fin 14 := 5

/-- TRK_DROPPED_FULL. -/
def trkDroppedFull : Fin 14 := 6

/-- TRK_EXITS. -/
def trkExits : Fin 14 := 7

/-- TRK_OUTSIDE_IGNORED. -/
def trkOutsideIgnored : Fin 14 := 8

/-- TRK_CONFIRMS. -/
def trkConfirms : Fin 14 := 9

/-- TRK_TENTATIVE_LOST. -/
def trkTentativeLost : Fin 14 := 10

/-- TRK_HOLD_EXPIRIES. -/
def trkHoldExpiries : Fin 14 := 11

/-- TRK_STALE_AGINGS. -/
def trkStaleAgings : Fin 14 := 12

/-- TRK_CLEARS. -/
def trkClears : Fin 14 := 13

/-! ## Build (PB, R79) -/

/-- PB_BUILDS. -/
def pbBuilds : Fin 4 := 0

/-- PB_TRIGGERS_MERGED. -/
def pbTriggersMerged : Fin 4 := 1

/-- PB_COMMITS_TAKEN. -/
def pbCommitsTaken : Fin 4 := 2

/-- PB_MODE_CHANGES. -/
def pbModeChanges : Fin 4 := 3

/-! ## Link (SLC, R121) -/

/-- LNK_RX_FRAMES. -/
def lnkRxFrames : Fin 13 := 0

/-- LNK_RX_ERRORS. -/
def lnkRxErrors : Fin 13 := 1

/-- LNK_RX_REJECTED. -/
def lnkRxRejected : Fin 13 := 2

/-- LNK_STATUS_TAKEN. -/
def lnkStatusTaken : Fin 13 := 3

/-- LNK_JOINS. -/
def lnkJoins : Fin 13 := 4

/-- LNK_REPLY_TIMEOUTS. -/
def lnkReplyTimeouts : Fin 13 := 5

/-- LNK_MISSES. -/
def lnkMisses : Fin 13 := 6

/-- LNK_BREAKS. -/
def lnkBreaks : Fin 13 := 7

/-- LNK_TX_CUT. -/
def lnkTxCut : Fin 13 := 8

/-- LNK_BLOCKS_SENT. -/
def lnkBlocksSent : Fin 13 := 9

/-- LNK_PASS_SENT. -/
def lnkPassSent : Fin 13 := 10

/-- LNK_PASS_DROPPED. -/
def lnkPassDropped : Fin 13 := 11

/-- LNK_PASS_UP. -/
def lnkPassUp : Fin 13 := 12

/-! ## Delivery (DU, R134) -/

/-- DU_DELIVERIES. -/
def duDeliveries : Fin 9 := 0

/-- DU_APPLIED. -/
def duApplied : Fin 9 := 1

/-- DU_ABANDONED_TIMEOUT. -/
def duAbandonedTimeout : Fin 9 := 2

/-- DU_ABANDONED_EMPTY. -/
def duAbandonedEmpty : Fin 9 := 3

/-- DU_SUPERSEDED. -/
def duSuperseded : Fin 9 := 4

/-- DU_ACKS. -/
def duAcks : Fin 9 := 5

/-- DU_ACKS_STALE. -/
def duAcksStale : Fin 9 := 6

/-- DU_ACKS_UNEXPECTED. -/
def duAcksUnexpected : Fin 9 := 7

/-- DU_BROKEN_DROPS. -/
def duBrokenDrops : Fin 9 := 8

/-! ## Condition (CM, R148) -/

/-- CM_NOTICES. -/
def cmNotices : Fin 3 := 0

/-- CM_NOTICES_REPLACED. -/
def cmNoticesReplaced : Fin 3 := 1

/-- CM_RECOVERS_REFUSED. -/
def cmRecoversRefused : Fin 3 := 2

/-! ## Port (UP, R162) -/

/-- UP_RX_GOOD. -/
def upRxGood : Fin 19 := 0

/-- UP_RX_CHECK. -/
def upRxCheck : Fin 19 := 1

/-- UP_RX_LONG. -/
def upRxLong : Fin 19 := 2

/-- UP_RX_CUT. -/
def upRxCut : Fin 19 := 3

/-- LINK_DEGRADED. -/
def linkDegraded : Fin 19 := 4

/-- UP_DETACHES. -/
def upDetaches : Fin 19 := 5

/-- UP_MGMT_FRAMES. -/
def upMgmtFrames : Fin 19 := 6

/-- MGMT_OVERRUN. -/
def mgmtOverrun : Fin 19 := 7

/-- UP_UNMATCHED. -/
def upUnmatched : Fin 19 := 8

/-- UP_OBJ_FRAMES. -/
def upObjFrames : Fin 19 := 9

/-- UP_OBJ_DROPPED. -/
def upObjDropped : Fin 19 := 10

/-- UP_VEH_FRAMES. -/
def upVehFrames : Fin 19 := 11

/-- UP_VEH_DISPLACED. -/
def upVehDisplaced : Fin 19 := 12

/-- UP_DISCARDED. -/
def upDiscarded : Fin 19 := 13

/-- UP_PASS_DOWN. -/
def upPassDown : Fin 19 := 14

/-- UP_PASS_UP_DROPPED. -/
def upPassUpDropped : Fin 19 := 15

/-- UP_PASS_UP_SENT. -/
def upPassUpSent : Fin 19 := 16

/-- UP_TX_FRAMES. -/
def upTxFrames : Fin 19 := 17

/-- UP_TX_RESENT. -/
def upTxResent : Fin 19 := 18

/-! ## Management (MU, R168) -/

/-- MU_COMMANDS. -/
def muCommands : Fin 4 := 0

/-- MU_BAD_REQUESTS. -/
def muBadRequests : Fin 4 := 1

/-- MU_COMMITS. -/
def muCommits : Fin 4 := 2

/-- MU_COMMITS_REJECTED. -/
def muCommitsRejected : Fin 4 := 3

end Sys2Proof.Machine.Stat
end

