-- ==== Sys2Proof/Machine/Resets.lean ====
section
/-! DEFINITION. The state each block takes at power-on, at the reset pin and at RESTART (R21, R34, R57, R60, R80, R122,
R133, R149, R163, R178), and the raw values the blocks send CM as a reset ends. The clock stands at 0 as a reset
ends. -/

namespace Sys2Proof.Machine

/-- A frame input after a reset (R21). -/
def inputReset {α : Type} : FrameInput α :=
  { value := none, updatedAt := none, fresh := false, timer := none }

/-- The steering pin after power-on and the reset pin (R21). -/
def steerPinReset : SteerPin :=
  { counter := 0, reference := 0, referenced := false, phaseErrors := 0, angle := 0 }

/-- VSB after a reset that leaves these Vehicle Parameters live and this steering pin (R21). The pin angle is worked
out again from the counts the pin holds. -/
def vsbReset (p : VehicleParams) (pin : SteerPin) : Vsb :=
  let pin' : SteerPin :=
    if pin.referenced then { pin with angle := pinAngleOf pin.counter pin.reference p.countsPerDegree } else pin
  let v : Vsb :=
    { speedIn := inputReset, steerIn := inputReset, pitch := inputReset, request := inputReset, road := inputReset
      weather := inputReset, speed := pinField 0, steer := frameField inputReset
      lastEdge := none, period := none, pinSpeed := 0, spdTimer := none, pin := pin'
      sent := { speedStale := false, steerStale := false, requestStale := false, disagree := false }
      stats := Row.fill 7 0 }
  let w := { v with speed := selectSpeed p v, steer := selectSteer p v }
  { w with sent := vehicleRaws p w }

/-- SA after a reset (R34). -/
def saReset : Sa :=
  { progress := none, buffer := [], lastScene := none, timer := none, stale := false, handover := false
    stats := Row.fill 11 0 }

/-- TU after a reset (R57, R60). -/
def tuReset : Tu :=
  { tracks := Row.fill 24 none, stats := Row.fill 14 0 }

/-- The levels of a dark pair of lamps. -/
def darkLevels : Levels :=
  { left := Row.fill 96 0, right := Row.fill 96 0 }

/-- PB as a reset leaves it, before the first build starts (R80). -/
def pbReset : Pb :=
  { build := none, rebuild := false, refresh := none, latch := none, mode := .off, swivel := 0, rowShift := 0
    previous := darkLevels, generation := 0, stats := Row.fill 4 0 }

/-- A Module record set up from its Module Table entry (R103). -/
def moduleSetUp (e : ModuleEntry) : ModuleRec :=
  { state := if e.present then .joining else .absent, misses := 0, band := 0, failed := [], selfFallback := false
    outstanding := none, treatedAbsent := false }

/-- A Poll group entry at a set-up (R103, R105). -/
def pollSetUp (e : ModuleEntry) : Option PollKind :=
  if e.present then some .join else none

/-- The member that comes before another in the rotation order Pattern, Pass, Poll group (R118). -/
def memberBefore : Member → Member
  | .pattern => .pollGroup
  | .pass => .pattern
  | .pollGroup => .pass

/-- Whether any Poll group entry is filled (R113). -/
def anyPoll (poll : Row 4 (Option PollKind)) : Bool :=
  allSlots.any fun k => (poll.get k).isSome

/-- SLC of a link after a reset that leaves these tables live (R122). -/
def slcReset (t : Tables) (l : Link) : Slc :=
  let modules := (t.modules.get l).map moduleSetUp
  let poll := (t.modules.get l).map pollSetUp
  { modules := modules, patternQ := [], passQ := [], poll := poll
    tx := if anyPoll poll then .waking else .idle
    txSeq := 0, lastGranted := memberBefore t.link.defaultMember, lastServed := 3
    pollTimer := some (msToUs t.link.pollPeriod), sent := linkRaws t l modules, stats := Row.fill 13 0 }

/-- The links as a reset with these tables leaves them (R122). -/
def linksReset (t : Tables) : Both Slc :=
  { left := slcReset t .left, right := slcReset t .right }

/-- DU after a reset (R133). -/
def duReset : Du :=
  { delivering := none, waiting := none, ackSet := [], applyTimer := none
    applyDone := { left := false, right := false }, applied := none, noModules := false, stats := Row.fill 9 0 }

/-- A Condition record after a reset (R149). -/
def condReset : CondRec :=
  { state := .clear, raw := false, rawLeft := false, rawRight := false, count := 0, persist := none, recover := none
    faults := 0 }

/-- CM after a reset (R149). -/
def cmReset : Cm :=
  { recs := Row.fill 16 condReset, action := .none, appliedMode := none, fbk := false, latched := Row.fill 16 false
    outstanding := false, stats := Row.fill 3 0 }

/-- UP after a reset (R163). -/
def upReset : Up :=
  { port := .normal, score := 0, recovery := none, objectQ := [], vehicleQ := [], mgmtQ := [], replyQ := []
    notice := none, passUpQ := [], tx := none, held := none, txSeq := 0, rxFrom := 0, stats := Row.fill 19 0 }

/-- MU after a reset (R178). -/
def muReset (t : Tables) (tablesDefault : Bool) (cause : ResetCause) (strap : Fin 4) : Mu :=
  { config := .run, holdLow := false, isolation := true, tables := t, staged := emptyStaging, commitPending := false
    tablesDefault := tablesDefault, cause := cause, strap := strap, restartPending := false, stats := Row.fill 4 0 }

/-- The strap value of two pin levels, MGB0 the low digit (00, Terms). -/
def strapOf (mgb1 mgb0 : Bool) : Fin 4 :=
  match mgb1, mgb0 with
  | false, false => 0
  | false, true => 1
  | true, false => 2
  | true, true => 3

/-- The four reports of VSB (R21). -/
def vehicleReports (r : VehicleRaws) : List LevelReport :=
  [⟨.speedStale, none, r.speedStale⟩, ⟨.steerStale, none, r.steerStale⟩, ⟨.requestStale, none, r.requestStale⟩,
   ⟨.steerDisagree, none, r.disagree⟩]

/-- The four reports of a link (R112). -/
def linkReports (l : Link) (r : LinkRaws) : List LevelReport :=
  [⟨.moduleBroken, some l, r.broken⟩, ⟨.moduleSelfFallback, some l, r.selfFallback⟩,
   ⟨.segmentFailed, some l, r.segFailed⟩, ⟨.overtemp, some l, r.overtemp⟩]

/-- The messages on their way as a reset ends (R149): the raw values of VSB, SA, the links, DU and UP. -/
def mailReset (v : Vsb) (links : Both Slc) : Mail :=
  { levels := vehicleReports v.sent ++ [⟨.perceptionStale, none, false⟩] ++ linkReports .left links.left.sent
      ++ linkReports .right links.right.sent ++ [⟨.noModules, none, false⟩, ⟨.linkDetached, none, false⟩]
    events := [], toTu := [], tears := [], records := [], acks := [], broken := [], vehicleParams := 0
    classPolicy := 0, condTable := [] }

/-! ## What a build takes at its start (R65) -/

/-- The value and freshness of a frame input. -/
def inputReading {α : Type} (i : FrameInput α) : Reading α :=
  { value := i.value, fresh := i.fresh }

/-- The value and freshness of a record field. -/
def fieldReading {α : Type} (f : RecordField α) : Reading α :=
  { value := f.value, fresh := f.fresh }

/-- What a build reads of a Module record. -/
def moduleView (m : ModuleRec) : ModuleView :=
  { state := m.state, band := m.band, failed := m.failed, treatedAbsent := m.treatedAbsent }

/-- The twenty-four track numbers in order. -/
def allTracks : List TrackNo :=
  List.finRange 24

/-- The streetlight count (R58). -/
def streetlightCount (tracks : Row 24 (Option Track)) : Nat :=
  allTracks.countP fun n =>
    match tracks.get n with
    | some t => decide (t.state = .confirmed) && decide (t.cls = .streetlight)
    | none => false

/-- Every input of a build as the blocks hold it (R65). -/
def inputsOf (v : Vsb) (tu : Tu) (links : Both Slc) (cm : Cm) (mu : Mu) (pb : Pb) : BuildInputs :=
  { speed := fieldReading v.speed, steer := fieldReading v.steer, pitch := inputReading v.pitch
    request := inputReading v.request, road := inputReading v.road, weather := inputReading v.weather
    tracks := tu.tracks, streetlights := streetlightCount tu.tracks
    modules := { left := links.left.modules.map moduleView, right := links.right.modules.map moduleView }
    action := cm.action, config := mu.config, holdLow := mu.holdLow, tables := mu.tables, mode := pb.mode
    swivel := pb.swivel, rowShift := pb.rowShift, previous := pb.previous, latch := pb.latch }

/-- PB once a build has started with these inputs (R63, R65, R66). -/
def pbStarted (pb : Pb) (inputs : BuildInputs) (refresh : Timer) : Pb :=
  { pb with build := some inputs, latch := none, refresh := refresh, stats := bumpAt Stat.pbBuilds pb.stats }

/-- PB as a reset ends: the first build has started (R80). -/
def pbAfterReset (v : Vsb) (links : Both Slc) (mu : Mu) : Pb :=
  pbStarted pbReset (inputsOf v tuReset links cmReset mu pbReset) (some (msToUs mu.tables.link.buildPeriod))

end Sys2Proof.Machine
end

