-- ==== Sys2Proof/Machine/State.lean ====
section
/-! DEFINITION. The state of the whole part, the reasons a step could stop, and the state right after reset. -/

namespace Sys2Proof.Machine

/-- A step of this block never stops with a fault: the spec goes on in every case, and what it calls FAULT is a
state of a condition. There is nothing to construct. -/
inductive Fault : Type
deriving DecidableEq, Repr

/-- Why a command would have no meaning. -/
inductive Refusal where
  /-- A command that has no meaning in this model yet; no arm of the dispatch raises it. Safe: a run stops. -/
  | notModelled (mnemonic : String)
deriving DecidableEq, Repr

/-- The whole part: the clock, the pins, the nine blocks, the messages on their way between them, and the commands
waiting, first in, first out. -/
structure State where
  now : Nat
  inReset : Bool
  sta : Bool
  stb : Bool
  vsb : Vsb
  sa : Sa
  tu : Tu
  pb : Pb
  links : Both Slc
  du : Du
  cm : Cm
  up : Up
  mu : Mu
  mail : Mail
  pending : List Instr
deriving DecidableEq, Repr

/-- The part right after power-on with both strap pins low (R21, R34, R57, R80, R122, R133, R149, R163, R178): every
block at its reset value, the built-in tables live, the first build in flight, the links' transmitters waking for
their JOINs, and the raw reports each reset ends with on their way to CM. -/
def State.reset : State :=
  { now := 0
    inReset := false
    sta := false
    stb := false
    vsb := vsbReset builtInVehicle steerPinReset
    sa := saReset
    tu := tuReset
    pb := pbAfterReset (vsbReset builtInVehicle steerPinReset) (linksReset builtInTables)
      (muReset builtInTables true .power (strapOf false false))
    links := linksReset builtInTables
    du := duReset
    cm := cmReset
    up := upReset
    mu := muReset builtInTables true .power (strapOf false false)
    mail := mailReset (vsbReset builtInVehicle steerPinReset) (linksReset builtInTables)
    pending := [] }

end Sys2Proof.Machine
end

