-- ==== Sys2Proof/Machine/Ops.lean ====
section
/-! DEFINITION. The operations every family shares: when an event can come, timers, messages between blocks, the
re-evaluations of VSB, the reports and the transmitter of a link, the build trigger and build start, the choice of the
upstream transmitter, and a reset. -/

namespace Sys2Proof.Machine

/-! ## Events and time -/

/-- An event taken while RESETN does not hold the part; while it does, nothing is taken (R144). -/
def running (s : State) (f : State → State) : Host.Outcome State Fault Refusal :=
  .next (if s.inReset then s else f s)

/-- An event that happens only where its occasion holds; otherwise it does not happen and nothing changes
(assumption 2). -/
def whenever (occasion : Bool) (s : State) (f : State → State) : Host.Outcome State Fault Refusal :=
  running s fun s => if occasion then f s else s

/-- A timer is due: it runs and its interval has passed (00, Timers). -/
def due (now : Nat) (t : Timer) : Bool :=
  match t with
  | none => false
  | some d => decide (d ≤ now)

/-- A timer started at `now` with an interval in ms. -/
def startTimer (now ms : Nat) : Timer :=
  some (now + msToUs ms)

/-- The time left on a timer in whole ms, rounded down; none while it is stopped. -/
def timeLeft (now : Nat) (t : Timer) : Option Nat :=
  t.map fun d => (d - now) / 1000

/-! ## Messages to CM -/

/-- A raw report of a level condition is sent to CM (R135). -/
def sendLevel (c : Cond) (l : Option Link) (value : Bool) (s : State) : State :=
  { s with mail := { s.mail with levels := s.mail.levels ++ [⟨c, l, value⟩] } }

/-- An event of an event condition is sent to CM (R135). -/
def sendEvent (c : Cond) (s : State) : State :=
  { s with mail := { s.mail with events := s.mail.events ++ [c] } }

/-- A raw value is sent only where it differs from the one last sent. -/
def sendIfChanged (c : Cond) (l : Option Link) (old new : Bool) (s : State) : State :=
  if old = new then s else sendLevel c l new s

/-! ## VSB -/

/-- The three stale raw values are worked out again and sent where they changed (R17). -/
def reportStale (s : State) : State :=
  let old := s.vsb.sent
  let new := vehicleRaws s.mu.tables.vehicle s.vsb
  let s := { s with vsb := { s.vsb with sent :=
    { old with speedStale := new.speedStale, steerStale := new.steerStale, requestStale := new.requestStale } } }
  sendIfChanged .requestStale none old.requestStale new.requestStale
    (sendIfChanged .steerStale none old.steerStale new.steerStale
      (sendIfChanged .speedStale none old.speedStale new.speedStale s))

/-- The disagreement check is made again and its raw value sent where it changed (R16). -/
def reportDisagree (s : State) : State :=
  let old := s.vsb.sent
  let new := disagreeRaw s.mu.tables.vehicle s.vsb
  sendIfChanged .steerDisagree none old.disagree new
    { s with vsb := { s.vsb with sent := { old with disagree := new } } }

/-- The speed record field is selected again (R14). -/
def reselectSpeed (s : State) : State :=
  { s with vsb := { s.vsb with speed := selectSpeed s.mu.tables.vehicle s.vsb } }

/-- The steering record field is selected again (R15). -/
def reselectSteer (s : State) : State :=
  { s with vsb := { s.vsb with steer := selectSteer s.mu.tables.vehicle s.vsb } }

/-- What follows an event that concerns speed (section 1.5). -/
def speedChanged (s : State) : State :=
  reportStale (reselectSpeed s)

/-- What follows an event that concerns steering (section 1.5): record field, disagreement, raw values. -/
def steerChanged (s : State) : State :=
  reportStale (reportDisagree (reselectSteer s))

/-! ## Links -/

/-- One link's controller changed. -/
def updLink (l : Link) (f : Slc → Slc) (s : State) : State :=
  { s with links := s.links.set l (f (s.links.get l)) }

/-- The four raw values of a link are worked out again and sent where they changed (R112). -/
def reportLink (l : Link) (s : State) : State :=
  let old := (s.links.get l).sent
  let new := linkRaws s.mu.tables l (s.links.get l).modules
  sendIfChanged .overtemp (some l) old.overtemp new.overtemp
    (sendIfChanged .segmentFailed (some l) old.segFailed new.segFailed
      (sendIfChanged .moduleSelfFallback (some l) old.selfFallback new.selfFallback
        (sendIfChanged .moduleBroken (some l) old.broken new.broken
          (updLink l (fun c => { c with sent := new }) s))))

/-- Both links report (R112). -/
def reportLinks (s : State) : State :=
  reportLink .right (reportLink .left s)

/-- Whether a member holds a frame, and so requests (R115). -/
def requests (c : Slc) : Member → Bool
  | .pattern => !c.patternQ.isEmpty
  | .pass => !c.passQ.isEmpty
  | .pollGroup => anyPoll c.poll

/-- Whether any member requests. -/
def anyRequest (c : Slc) : Bool :=
  requests c .pattern || requests c .pass || requests c .pollGroup

/-- An IDLE transmitter that a member requests becomes WAKING (R115). -/
def wakeSlc (c : Slc) : Slc :=
  if c.tx = .idle && anyRequest c then { c with tx := .waking } else c

/-- The transmitter of a link wakes if a member requests it (R115). -/
def wake (l : Link) (s : State) : State :=
  updLink l wakeSlc s

/-! ## Tables coming into force, and builds -/

/-- The latching fields of a Condition Table. -/
def latchings (t : Row 16 CondEntry) : Row 16 Bool :=
  t.map CondEntry.latching

/-- What follows when a table has become live, `before` being what was live until then: VSB, TU and CM are to act on
it as events of their own (R18, R38, R137), and the links report again (R112). -/
def tableLives (id : TableId) (before : Tables) (s : State) : State :=
  match id with
  | .vehicle => { s with mail := { s.mail with vehicleParams := s.mail.vehicleParams + 1 } }
  | .classPolicy => { s with mail := { s.mail with classPolicy := s.mail.classPolicy + 1 } }
  | .condition =>
    { s with mail := { s.mail with condTable :=
      s.mail.condTable ++ [⟨latchings before.condition, latchings s.mu.tables.condition⟩] } }
  | .build | .segMap => reportLinks s
  | .curve | .margin | .window | .derate | .filter | .modules | .profile | .mode | .link => s

/-- The live tables with every staged copy in its place (R64). -/
def overlay (st : Staging) (t : Tables) : Tables :=
  { t with
    curve := st.curve.getD t.curve
    classPolicy := st.classPolicy.getD t.classPolicy
    margin := st.margin.getD t.margin
    window := st.window.getD t.window
    derate := st.derate.getD t.derate
    condition := st.condition.getD t.condition
    vehicle := st.vehicle.getD t.vehicle
    build := st.build.getD t.build }

/-- Whether the staging area holds a copy of a table (R170). -/
def isStaged (st : Staging) : TableId → Bool
  | .curve => st.curve.isSome
  | .classPolicy => st.classPolicy.isSome
  | .margin => st.margin.isSome
  | .window => st.window.isSome
  | .derate => st.derate.isSome
  | .condition => st.condition.isSome
  | .vehicle => st.vehicle.isSome
  | .build => st.build.isSome
  | .filter | .segMap | .modules | .profile | .mode | .link => false

/-- A pending commit is taken: the staged tables become the live tables (R64). -/
def takeCommit (s : State) : State :=
  if s.mu.commitPending then
    let before := s.mu.tables
    let staged := s.mu.staged
    let s := { s with
      mu := { s.mu with tables := overlay staged before, staged := emptyStaging, commitPending := false }
      pb := { s.pb with stats := bumpAt Stat.pbCommitsTaken s.pb.stats } }
    (allTables.filter (isStaged staged)).foldl (fun s id => tableLives id before s) s
  else s

/-- A build starts (R64, R65): a pending commit is taken, then every input as it stands; the refresh timer is
restarted (R63). -/
def buildStart (s : State) : State :=
  let s := takeCommit s
  let inputs := inputsOf s.vsb s.tu s.links s.cm s.mu s.pb
  let refresh := startTimer s.now s.mu.tables.link.buildPeriod
  { s with pb := pbStarted s.pb inputs refresh }

/-- A build trigger reaches PB (R61): it starts a build, or merges into rebuild-pending. -/
def trigger (s : State) : State :=
  match s.pb.build with
  | none => buildStart s
  | some _ =>
    { s with pb := { s.pb with rebuild := true, stats := bumpAt Stat.pbTriggersMerged s.pb.stats } }

/-! ## The upstream transmitter -/

/-- The management request code (R155). -/
def requestCode (strap : Fin 4) : BitVec 10 :=
  BitVec.ofNat 10 (1000 + 2 * strap.val)

/-- The management reply code (R155). -/
def replyCode (strap : Fin 4) : BitVec 10 :=
  BitVec.ofNat 10 (1001 + 2 * strap.val)

/-- The transmitter starts a frame for the first time: it carries the transmit sequence, which advances (R159). -/
def upSendNew (kind : UpTxKind) (code : BitVec 10) (payload : List Byte) (u : Up) : Up :=
  { u with tx := some ⟨kind, ⟨code, u.txSeq, true, payload⟩⟩, txSeq := u.txSeq + 1 }

/-- The transmitter starts a frame again that was cut, with the sequence it was first given (R161). -/
def upSendAgain (tx : UpTx) (u : Up) : Up :=
  { u with tx := some tx, stats := bumpAt Stat.upTxResent u.stats }

/-- The transmitter, free to send, takes the first frame in the fixed order: the held frame, the Reply queue, the
Notice slot, the Pass-Up queue (R161). -/
def upChoose (strap : Fin 4) (u : Up) : Up :=
  match u.held, u.replyQ, u.notice, u.passUpQ with
  | some h, _, _, _ => upSendAgain h { u with held := none }
  | none, r :: rest, _, _ => upSendNew (.reply r.restart) (replyCode strap) r.payload { u with replyQ := rest }
  | none, [], some n, _ =>
    match n.seq with
    | none => upSendNew .notice (replyCode strap) n.payload { u with notice := none }
    | some q => upSendAgain ⟨.notice, ⟨replyCode strap, q, true, n.payload⟩⟩ { u with notice := none }
  | none, [], none, p :: rest => upSendNew .passUp p.code p.payload { u with passUpQ := rest }
  | none, [], none, [] => u

/-- An IDLE transmitter of a port that is not DETACHED chooses a frame (R161). -/
def upStartUp (strap : Fin 4) (u : Up) : Up :=
  if u.port ≠ .detached && u.tx.isNone then upChoose strap u else u

/-- The upstream transmitter starts if it can (R161). -/
def upStart (s : State) : State :=
  { s with up := upStartUp s.mu.strap s.up }

/-! ## Resets -/

/-- A reset runs (R178 and the reset rule of each block): the tables, TABLES_DEFAULT, the cause, the strap value and
the steering pin it leaves are given; the pins and the commands waiting are no part of it. -/
def runReset (t : Tables) (tablesDefault : Bool) (cause : ResetCause) (strap : Fin 4) (pin : SteerPin)
    (s : State) : State :=
  let vsb := vsbReset t.vehicle pin
  let links := linksReset t
  let mu := muReset t tablesDefault cause strap
  { now := 0, inReset := false, sta := s.sta, stb := s.stb
    vsb := vsb, sa := saReset, tu := tuReset, pb := pbAfterReset vsb links mu, links := links, du := duReset
    cm := cmReset, up := upReset, mu := mu, mail := mailReset vsb links, pending := s.pending }

/-- The reset of RESTART (R177): the tables, TABLES_DEFAULT, the strap value and the steering pin are kept. -/
def restartReset (s : State) : State :=
  runReset s.mu.tables s.mu.tablesDefault .restart s.mu.strap s.vsb.pin s

end Sys2Proof.Machine
end

