-- ==== Sys2Proof/Machine/Pattern.lean ====
section
/-! DEFINITION. The stages of a build (chapters 4 and 5), computed from the inputs a build took at its start: mode,
base, swivel, levelling, soft shadows, windows, derate, ramp and hard limits. Each stage is a function of one lamp and
one segment. -/

namespace Sys2Proof.Machine

/-! ## Stage 1: mode -/

/-- The beam request a build works by: a STALE one is taken as LOW (R67). -/
def effectiveRequest (b : BuildInputs) : BeamRequest :=
  if b.request.fresh then b.request.value.getD .low else .low

/-- A speed test, failed by an unknown speed (R69). -/
def speedTest (b : BuildInputs) (test : Nat → Bool) : Bool :=
  b.speed.fresh && b.speed.value.any test

/-- The town speed test (R69). -/
def townSpeedTest (b : BuildInputs) : Bool :=
  let t := b.tables.mode
  let bound := if b.mode = .town then t.townSpeed + t.hysteresis else t.townSpeed
  speedTest b fun v => decide (v < bound)

/-- The motorway speed test (R69). -/
def motorwaySpeedTest (b : BuildInputs) : Bool :=
  let t := b.tables.mode
  let bound := if b.mode = .motorway then t.motorwaySpeed - t.hysteresis else t.motorwaySpeed
  speedTest b fun v => decide (bound ≤ v)

/-- The weather level a build works by (R68). -/
def effectiveWeather (b : BuildInputs) : Nat :=
  if b.weather.fresh then b.weather.value.getD 0 else 0

/-- Whether the road class is fresh and this one (R68). -/
def roadIs (b : BuildInputs) (r : RoadClass) : Bool :=
  b.road.fresh && decide (b.road.value = some r)

/-- The automatic mode of HIGH_AUTO (R68). -/
def autoMode (b : BuildInputs) : Mode :=
  if b.tables.mode.adverseThreshold ≤ effectiveWeather b then .adverse
  else if roadIs b .urban || decide (b.tables.mode.townThreshold ≤ b.streetlights) || townSpeedTest b then .town
  else if roadIs b .motorway && motorwaySpeedTest b then .motorway
  else .country

/-- The mode of a build (R67). -/
def chooseMode (b : BuildInputs) : Mode :=
  let request := effectiveRequest b
  if b.config = .config then (if request = .off then .off else .fallback)
  else if request = .off then .off
  else if b.action = .fallback then .fallback
  else if b.holdLow || decide (b.action = .lowOnly) then .low
  else
    match request with
    | .off => .off
    | .low => .low
    | .flash | .full => .full
    | .highAuto => autoMode b

/-- The mode's row of the Mode Table; OFF and FALLBACK use profile 0 with shadows not applied (R70, R72). -/
def modeRow (t : ModeTable) : Mode → ModeRow
  | .low => t.low
  | .town => t.town
  | .country => t.country
  | .motorway => t.motorway
  | .adverse => t.adverse
  | .full => t.full
  | .off | .fallback => ⟨0, false⟩

/-- Whether a mode is OFF or FALLBACK, whose swivel target and row shift are 0 (R74, R77). -/
def plainMode (m : Mode) : Bool :=
  decide (m = .off) || decide (m = .fallback)

/-! ## Stage 3: swivel -/

/-- The Curve Table's band for a speed (R73). -/
def bandOf (bands : Row 8 CurveBand) (speed : Nat) : Fin 8 :=
  ((List.finRange 8).find? fun i => decide (speed ≤ (bands.get i).bound)).getD 7

/-- The nine steering points (R73). -/
def steeringPoints (t : CurveTable) : List Int :=
  [-t.b4, -t.b3, -t.b2, -t.b1, 0, t.b1, t.b2, t.b3, t.b4]

/-- The value at an angle between two neighbouring points, the whole quotient rounded once; none where the angle lies
past the second (R74). -/
def interpolate (a p1 v1 p2 v2 : Int) : Option Int :=
  if a ≤ p2 then some (roundDiv (v1 * (p2 - p1) + (v2 - v1) * (a - p1)) (p2 - p1).toNat) else none

/-- The value along points and values in rising order, for an angle above the first point (R74). -/
def alongPoints (a : Int) : List (Int × Int) → Int
  | [] => 0
  | [(_, v)] => v
  | (p1, v1) :: (p2, v2) :: rest =>
    if a ≤ p1 then v1
    else
      match interpolate a p1 v1 p2 v2 with
      | some v => v
      | none => alongPoints a ((p2, v2) :: rest)

/-- The target swivel (R74). -/
def targetSwivel (b : BuildInputs) (mode : Mode) : Int :=
  let t := b.tables.curve
  let band := if b.speed.fresh then bandOf t.bands (b.speed.value.getD 0) else 0
  match b.steer.fresh && !plainMode mode, b.steer.value with
  | true, some a => alongPoints a ((steeringPoints t).zip (t.bands.get band).values.cells)
  | true, none | false, _ => 0

/-- The swivel of a build: the current one moved toward the target by at most the step (R75). -/
def moveSwivel (step : Nat) (current target : Int) : Int :=
  if |target - current| ≤ step then target
  else if current < target then current + step
  else current - step

/-! ## Stage 4: levelling -/

/-- The row shift of a build (R77). -/
def rowShiftOf (b : BuildInputs) (mode : Mode) : Int :=
  match b.pitch.fresh && !plainMode mode, b.pitch.value with
  | true, some p =>
    clamp (-1) 1 (-(roundDiv p (max b.tables.segMap.left.rowPitch b.tables.segMap.right.rowPitch)))
  | true, none | false, _ => 0

/-! ## Stages 5 and 9: shadow boxes -/

/-- Whether a track is eligible to cast a shadow (R81). -/
def eligible (policy : Row 6 ClassPolicy) (t : Track) : Bool :=
  match t.state with
  | .confirmed | .coasting => true
  | .tentative => (policy.get (classNo t.cls)).shadowTentative

/-- The extra widening for a distance (R84). -/
def extraOf (m : MarginTable) (distance : Option Nat) : Nat :=
  match distance with
  | none => m.absentExtra
  | some d => (m.bands.get (((List.finRange 4).find? fun i => decide (d ≤ (m.bands.get i).bound)).getD 3)).extra

/-- The shadow box of a track (R83). -/
def shadowBox (policy : Row 6 ClassPolicy) (m : MarginTable) (t : Track) : AngleBox :=
  let p := policy.get (classNo t.cls)
  let e := extraOf m t.distance
  { left := t.left - (p.marginLeft + e : Nat), right := t.right + (p.marginRight + e : Nat)
    upper := t.upper + p.marginTop, lower := t.lower }

/-- A shadow: its box and its class's shadow level. -/
structure Shadow where
  box : AngleBox
  level : Nat
deriving DecidableEq, Repr

/-- The shadows of the eligible tracks whose class is hard, or soft (R81, R83). -/
def shadowsOf (hard : Bool) (tables : Tables) (tracks : Row 24 (Option Track)) : List Shadow :=
  tracks.cells.filterMap fun x =>
    match x with
    | none => none
    | some t =>
      if eligible tables.classPolicy t && ((tables.classPolicy.get (classNo t.cls)).hard == hard) then
        some { box := shadowBox tables.classPolicy tables.margin t
               level := (tables.classPolicy.get (classNo t.cls)).shadowLevel }
      else none

/-! ## The plan of a build -/

/-- What stages 1, 3 and 4 chose, and the shadows, before any level is computed. -/
structure Plan where
  mode : Mode
  swivel : Int
  rowShift : Int
  profile : Profile
  soft : List Shadow
  hard : List Shadow
deriving DecidableEq, Repr

/-- The plan of a build from its inputs. -/
def planOf (b : BuildInputs) : Plan :=
  let mode := chooseMode b
  let row := modeRow b.tables.mode mode
  { mode := mode
    swivel := moveSwivel b.tables.build.swivelStep b.swivel (targetSwivel b mode)
    rowShift := rowShiftOf b mode
    profile := b.tables.profile.get row.profile
    soft := if row.shadowsApply then shadowsOf false b.tables b.tracks else []
    hard := if row.shadowsApply then shadowsOf true b.tables b.tracks else [] }

/-! ## Stages 2 to 4 on one segment -/

/-- A profile's level (R72). -/
def profileLevel (p : Profile) (l : Link) (row : Fin 4) (column : Fin 24) : Nat :=
  ((p.levels.get l).get row).get column

/-- A position of a profile shifted in from outside, by the edge rule: the nearest edge, or none for dark (R76,
R78). -/
def shiftedIndex {n : Nat} (edge : EdgeRule) (first last : Fin n) (x : Int) : Option (Fin n) :=
  if x < 0 then (if edge = .hold then some first else none)
  else if h : x.toNat < n then some ⟨x.toNat, h⟩
  else (if edge = .hold then some last else none)

/-- The level after the swivel stage (R76). -/
def swivelled (p : Plan) (pitch : Nat) (l : Link) (row : Fin 4) (column : Nat) : Nat :=
  match shiftedIndex p.profile.edge 0 23 (column - roundDiv p.swivel pitch) with
  | some c => profileLevel p.profile l row c
  | none => 0

/-- The level after the levelling stage (R78). -/
def levelled (p : Plan) (pitch : Nat) (l : Link) (i : SegNo) : Nat :=
  match shiftedIndex p.profile.edge 0 3 (segRow i + p.rowShift) with
  | some r => swivelled p pitch l r (segColumn i)
  | none => 0

/-! ## Stages 5 to 9 on one segment -/

/-- Shadows hold a covered HIGH-zone segment down (R86, R93). -/
def shade (g : SegMapEntry) (shadows : List Shadow) (i : SegNo) (level : Nat) : Nat :=
  if g.high.get i then
    shadows.foldl (fun x s => if covers g s.box i then min x s.level else x) level
  else level

/-- Whether a fixed window is for a lamp (R88). -/
def windowForLamp (w : WindowLamp) (l : Link) : Bool :=
  match w, l with
  | .both, _ | .left, .left | .right, .right => true
  | .left, .right | .right, .left => false

/-- The box of a fixed window. -/
def windowBox (w : FixedWindow) : AngleBox :=
  { left := w.left, right := w.right, upper := w.upper, lower := some w.lower }

/-- One fixed window acts on a segment (R88). -/
def applyWindow (g : SegMapEntry) (mode : Mode) (l : Link) (i : SegNo) (level : Nat) (w : FixedWindow) : Nat :=
  if w.modes.getLsbD (modeNo mode).val && windowForLamp w.lamp l && covers g (windowBox w) i then
    match w.kind with
    | .cap => min level w.level
    | .floor => if g.high.get i then level else max level w.level
  else level

/-- Whether a slot has a window for derating and failed segments (R89, R96, R101). -/
def hasWindow (e : ModuleEntry) (m : ModuleView) : Bool :=
  e.present && !m.treatedAbsent

/-- The temperature band a segment is derated by (R90). -/
def derateBand (b : BuildInputs) (l : Link) (i : SegNo) : Fin 8 :=
  let driver := [(0 : Slot), 1, 2, 3].find? fun k =>
    hasWindow ((b.tables.modules.get l).get k) ((b.modules.get l).get k)
      && windowHolds ((b.tables.modules.get l).get k) i
  match driver with
  | none => 0
  | some k => Fin.ofNat 8 ((b.modules.get l).get k).band

/-- The ramp (R92). -/
def ramp (up down previous level : Nat) : Nat :=
  if previous + up < level then previous + up
  else if level + down < previous then previous - down
  else level

/-- Whether a module reports the segment failed (R96). -/
def reportedFailed (b : BuildInputs) (l : Link) (i : SegNo) : Bool :=
  [(0 : Slot), 1, 2, 3].any fun k =>
    let e := (b.tables.modules.get l).get k
    let m := (b.modules.get l).get k
    hasWindow e m && m.failed.any fun n => decide (windowSegment e n = some i)

/-- The limit of the mode (R94). -/
def modeLimit (mode : Mode) (high : Bool) (level : Nat) : Nat :=
  match mode with
  | .off => 0
  | .low | .fallback => if high then 0 else level
  | .town | .country | .motorway | .adverse | .full => level

/-- The limit of the action level (R95). -/
def dimLimit (action : Action) (dim : Nat) (high : Bool) (level : Nat) : Nat :=
  if decide (action = .dim) && high then min level dim else level

/-- The level of a segment after stage 7 (R72 to R90). -/
def targetLevel (b : BuildInputs) (p : Plan) (l : Link) (i : SegNo) : Nat :=
  let g := b.tables.segMap.get l
  let windows := b.tables.window.cells.foldl (applyWindow g p.mode l i) (shade g p.soft i (levelled p g.columnPitch l i))
  min windows (b.tables.derate.get (derateBand b l i))

/-- The level of a segment after stage 8 (R92). -/
def rampedLevel (b : BuildInputs) (p : Plan) (l : Link) (i : SegNo) : Nat :=
  ramp b.tables.build.upStep b.tables.build.downStep ((b.previous.get l).get i) (targetLevel b p l i)

/-- The five hard limits on a level (R93 to R96). -/
def hardLimits (b : BuildInputs) (p : Plan) (l : Link) (i : SegNo) (level : Nat) : Nat :=
  let g := b.tables.segMap.get l
  let high := g.high.get i
  let limited := dimLimit b.action b.tables.build.dimLevel high (modeLimit p.mode high (shade g p.hard i level))
  if reportedFailed b l i then 0 else limited

/-- The final level of a segment (R97). -/
def finalLevel (b : BuildInputs) (p : Plan) (l : Link) (i : SegNo) : Nat :=
  hardLimits b p l i (rampedLevel b p l i)

/-- The final levels of a build (R97). -/
def finalLevels (b : BuildInputs) (p : Plan) : Levels :=
  { left := Row.tabulate (finalLevel b p .left), right := Row.tabulate (finalLevel b p .right) }

end Sys2Proof.Machine
end

