-- ==== Sys2Proof/Machine/Build.lean ====
section
/-! DEFINITION. The commands of the Pattern Builder (chapters 4 and 5). -/

namespace Sys2Proof.Machine

/-- The build refresh timer expires: a build trigger (R63). The expiry does not restart the timer. -/
def expireRefresh (s : State) : State :=
  trigger { s with pb := { s.pb with refresh := none } }

/-- BUILD_REFRESH_TIMER_EXPIRY (R63). -/
def execBuildRefreshTimerExpiry (s : State) : Host.Outcome State Fault Refusal :=
  whenever (due s.now s.pb.refresh) s expireRefresh

/-- The generation record of a build (R98, R99). -/
def recordOf (b : BuildInputs) (p : Plan) (levels : Levels) (number : Byte) : GenRecord :=
  { number := number, mode := p.mode, swivel := p.swivel, rowShift := p.rowShift, scene := b.latch, levels := levels }

/-- What a build completion stores in PB (R66, R98). -/
def storeBuild (p : Plan) (levels : Levels) (pb : Pb) : Pb :=
  { pb with
    mode := p.mode, swivel := p.swivel, rowShift := p.rowShift, previous := levels, generation := pb.generation + 1
    stats := if p.mode = pb.mode then pb.stats else bumpAt Stat.pbModeChanges pb.stats }

/-- The build in flight completes (R66): its results are stored, its record handed to DU (R100), and the next build
started if one is pending. -/
def completeBuild (b : BuildInputs) (s : State) : State :=
  let p := planOf b
  let levels := finalLevels b p
  let pb := storeBuild p levels s.pb
  let s := { s with
    pb := { pb with build := none, rebuild := false }
    mail := { s.mail with records := s.mail.records ++ [recordOf b p levels pb.generation] } }
  if pb.rebuild then buildStart s else s

/-- BUILD_COMPLETION (R66). -/
def execBuildCompletion (s : State) : Host.Outcome State Fault Refusal :=
  running s fun s =>
    match s.pb.build with
    | none => s
    | some b => completeBuild b s

end Sys2Proof.Machine
end

