-- ==== Sys2Proof/Machine/ConditionOps.lean ====
section
/-! DEFINITION. The Condition Monitor's machines (R138, R140), the action level (R143), the latched report set and the
NOTICE (R145 to R147), and FBK (R144). A machine answers the new record and the states it entered on the way. -/

namespace Sys2Proof.Machine

/-- A Condition record after an event of its machine, with the states entered within the event, in order. -/
structure Moved where
  record : CondRec
  entered : List CondState
deriving DecidableEq, Repr

/-- A record that stays in its state. -/
def stay (r : CondRec) : Moved :=
  { record := r, entered := [] }

/-- A record entering FAULT: counted, and its persistence timer done with (R138). -/
def intoFault (r : CondRec) : CondRec :=
  { r with state := .fault, faults := bump r.faults, persist := none }

/-- A record returned to CLEAR (R138, R140). -/
def intoClear (r : CondRec) : CondRec :=
  { r with state := .clear, count := 0, persist := none, recover := none }

/-- A level condition enters RECOVERING; with Q of 0 it goes on to CLEAR (R138). -/
def levelRecover (now : Nat) (e : CondEntry) (r : CondRec) : Moved :=
  if e.recovery = 0 then { record := intoClear r, entered := [.recovering, .clear] }
  else { record := { r with state := .recovering, recover := startTimer now e.recovery }, entered := [.recovering] }

/-- A level condition's raw value becomes true (R138). -/
def levelTrue (now : Nat) (e : CondEntry) (r : CondRec) : Moved :=
  match r.state with
  | .clear =>
    if e.persistence = 0 then { record := intoFault r, entered := [.alert, .fault] }
    else { record := { r with state := .alert, persist := startTimer now e.persistence }, entered := [.alert] }
  | .recovering => { record := { intoFault r with recover := none }, entered := [.fault] }
  | .alert | .fault => stay r

/-- A level condition's raw value becomes false (R138). -/
def levelFalse (now : Nat) (e : CondEntry) (r : CondRec) : Moved :=
  match r.state with
  | .alert => { record := { r with state := .clear, persist := none }, entered := [.clear] }
  | .fault => if e.latching then stay r else levelRecover now e r
  | .clear | .recovering => stay r

/-- A level condition's persistence timer expires (R138). -/
def persistenceExpires (r : CondRec) : Moved :=
  match r.state with
  | .alert => { record := intoFault r, entered := [.fault] }
  | .clear | .fault | .recovering => stay { r with persist := none }

/-- A level condition's recovery timer expires (R138). -/
def levelRecoveryExpires (r : CondRec) : Moved :=
  match r.state with
  | .recovering => { record := intoClear r, entered := [.clear] }
  | .clear | .alert | .fault => stay { r with recover := none }

/-- The recovery timer of an event condition that is in FAULT: restarted, or stopped if it is latching (R140). -/
def faultTimer (now : Nat) (e : CondEntry) : Timer :=
  if e.latching then none else startTimer now e.recovery

/-- An event condition takes an event (R140). -/
def eventArrives (now : Nat) (e : CondEntry) (r : CondRec) : Moved :=
  match r.state with
  | .clear =>
    let r := { r with count := 1, recover := startTimer now e.recovery }
    if e.persistence = 1 then
      { record := { intoFault r with recover := faultTimer now e }, entered := [.alert, .fault] }
    else { record := { r with state := .alert }, entered := [.alert] }
  | .alert =>
    let r := { r with count := min 255 (r.count + 1), recover := startTimer now e.recovery }
    if e.persistence ≤ r.count then
      { record := { intoFault r with recover := faultTimer now e }, entered := [.fault] }
    else stay r
  | .fault => if e.latching then stay r else stay { r with recover := startTimer now e.recovery }
  | .recovering => { record := { intoFault r with recover := faultTimer now e }, entered := [.fault] }

/-- An event condition enters RECOVERING, its recovery timer started with Q (R140). -/
def eventRecover (now : Nat) (e : CondEntry) (r : CondRec) : Moved :=
  { record := { r with state := .recovering, recover := startTimer now e.recovery }, entered := [.recovering] }

/-- An event condition's recovery timer expires (R140). -/
def eventRecoveryExpires (now : Nat) (e : CondEntry) (r : CondRec) : Moved :=
  match r.state with
  | .alert | .recovering => { record := intoClear r, entered := [.clear] }
  | .fault => if e.latching then stay { r with recover := none } else eventRecover now e r
  | .clear => stay { r with recover := none }

/-! ## The latched report set -/

/-- Whether entering a state places a condition in the latched report set (R145). -/
def joins (at_ : ReportAt) (entered : CondState) : Bool :=
  match at_, entered with
  | .alert, .alert | .alert, .fault | .fault, .fault => true
  | .alert, .clear | .alert, .recovering | .fault, .clear | .fault, .alert | .fault, .recovering | .never, _ => false

/-- Two condition states in one number of two digits. -/
def statePair (a b : CondState) : Nat :=
  condStateNo a * 4 + condStateNo b

/-- The byte of four condition states, the first in the top bits (section 11.3). -/
def stateByte (recs : Row 16 CondRec) (i : Fin 4) : Byte :=
  let st (j : Fin 4) : CondState := (recs.get ⟨4 * i.val + j.val, by omega⟩).state
  BitVec.ofNat 8 (statePair (st 0) (st 1) * 16 + statePair (st 2) (st 3))

/-- The latched report set as a number: the bit of weight 2ⁿ for condition n (section 11.3). -/
def latchedNumber (latched : Row 16 Bool) : Nat :=
  (List.finRange 16).foldl (fun n i => if latched.get i then n + 2 ^ i.val else n) 0

/-- The payload of a NOTICE (R146, section 11.3). -/
def noticePayload (cm : Cm) : List Byte :=
  [2] ++ bytes2 (latchedNumber cm.latched) ++ [stateByte cm.recs 0, stateByte cm.recs 1, stateByte cm.recs 2,
    stateByte cm.recs 3] ++ byte1 (actionNo cm.action + if cm.fbk then 4 else 0)

/-- Whether the latched report set holds a condition. -/
def anyLatched (latched : Row 16 Bool) : Bool :=
  allConds.any fun c => latched.get (condNo c)

/-- CM places a NOTICE formed from the state as it stands in the Notice slot; the transmitter starts if it can, at once,
also where the event goes on to place a reply (R146, R161, assumption 31). -/
def placeNotice (s : State) : State :=
  let stat := if s.up.notice.isSome then Stat.cmNoticesReplaced else Stat.cmNotices
  upStart { s with
    up := { s.up with notice := some { payload := noticePayload s.cm, seq := none } }
    cm := { s.cm with outstanding := true, stats := bumpAt stat s.cm.stats } }

/-- The action level is worked out again under the Condition Table in force; a change is stored and triggers a build
(R143). -/
def reworkAction (s : State) : State :=
  let level := actionLevel s.mu.tables.condition s.cm.recs
  if level = s.cm.action then s else trigger { s with cm := { s.cm with action := level } }

/-- A condition's record replaced by what its machine made of it: the latched report set, the action level and, as the
event's last act, the NOTICE (R143, R145, R146, assumption 13). -/
def settle (c : Cond) (m : Moved) (s : State) : State :=
  let old := s.cm.recs.get (condNo c)
  let entry := s.mu.tables.condition.get (condNo c)
  let joining := m.entered.any (joins entry.report)
  let latched := if joining then s.cm.latched.set (condNo c) true else s.cm.latched
  let s := { s with cm := { s.cm with recs := s.cm.recs.set (condNo c) m.record, latched := latched } }
  let faultMoved := m.entered.any (fun st => decide (st = .fault)) ||
    (decide (old.state = .fault) && decide (m.record.state ≠ .fault))
  let s := if faultMoved then reworkAction s else s
  if joining && !s.cm.outstanding then placeNotice s else s

/-- A condition's machine runs an event: `move` is what the machine makes of the record under the entry in force. -/
def runCondition (c : Cond) (move : CondEntry → CondRec → Moved) (s : State) : State :=
  settle c (move (s.mu.tables.condition.get (condNo c)) (s.cm.recs.get (condNo c))) s

/-! ## FBK -/

/-- DU tells CM the mode of the generation applied; FBK follows it (R144). -/
def cmApplied (mode : Mode) (s : State) : State :=
  { s with cm := { s.cm with appliedMode := some mode, fbk := decide (mode = .fallback) } }

end Sys2Proof.Machine
end

