-- ==== Sys2Proof/Machine/Conditions.lean ====
section
/-! DEFINITION. The commands of the Condition Monitor (chapter 8). -/

namespace Sys2Proof.Machine

/-- A raw value stored: the condition's own, or one link's (R135). -/
def storeRaw (l : Option Link) (value : Bool) (r : CondRec) : CondRec :=
  match l with
  | none => { r with raw := value }
  | some .left => { r with rawLeft := value }
  | some .right => { r with rawRight := value }

/-- CM takes a raw report: stored, and given to the level machine where the condition's raw value changed (R135). -/
def takeLevelReport (x : LevelReport) (s : State) : State :=
  let old := s.cm.recs.get (condNo x.cond)
  let new := storeRaw x.link x.value old
  let s := { s with cm := { s.cm with recs := s.cm.recs.set (condNo x.cond) new } }
  if condRaw x.cond new = condRaw x.cond old then s
  else runCondition x.cond
    (fun e r => if condRaw x.cond new then levelTrue s.now e r else levelFalse s.now e r) s

/-- Whether a report is of this condition and link. -/
def reportsOn (c : Cond) (l : Option Link) (x : LevelReport) : Bool :=
  decide (x.cond = c) && decide (x.link = l)

/-- CM takes a report within the event that sends it; the reports of its condition and link that still wait are taken
before it, oldest first (assumption 28). -/
def takeReportNow (x : LevelReport) (s : State) : State :=
  let waiting := s.mail.levels.filter (reportsOn x.cond x.link)
  let others := s.mail.levels.filter fun y => !reportsOn x.cond x.link y
  (waiting ++ [x]).foldl (fun s y => takeLevelReport y s) { s with mail := { s.mail with levels := others } }

/-- LEVEL_RAW_REPORT (R135, R138): the oldest report waiting of this condition and link. -/
def execLevelRawReport (c : Cond) (l : Option Link) (s : State) : Host.Outcome State Fault Refusal :=
  running s fun s =>
    match s.mail.levels.find? (reportsOn c l) with
    | none => s
    | some x => takeLevelReport x { s with mail := { s.mail with levels := s.mail.levels.erase x } }

/-- CM takes an event of an event condition (R140). -/
def takeEvent (c : Cond) (s : State) : State :=
  runCondition c (eventArrives s.now) { s with mail := { s.mail with events := s.mail.events.erase c } }

/-- CONDITION_EVENT (R140). -/
def execConditionEvent (c : Cond) (s : State) : Host.Outcome State Fault Refusal :=
  whenever (s.mail.events.contains c) s (takeEvent c)

/-- The record of a condition. -/
def condRec (s : State) (c : Cond) : CondRec :=
  s.cm.recs.get (condNo c)

/-- PERSISTENCE_TIMER_EXPIRY (R138). -/
def execPersistenceTimerExpiry (c : Cond) (s : State) : Host.Outcome State Fault Refusal :=
  whenever (due s.now (condRec s c).persist) s (runCondition c fun _ r => persistenceExpires r)

/-- LEVEL_RECOVERY_TIMER_EXPIRY (R138). -/
def execLevelRecoveryTimerExpiry (c : Cond) (s : State) : Host.Outcome State Fault Refusal :=
  whenever (decide (condKind c = .level) && due s.now (condRec s c).recover) s
    (runCondition c fun _ r => levelRecoveryExpires r)

/-- EVENT_RECOVERY_TIMER_EXPIRY (R140). -/
def execEventRecoveryTimerExpiry (c : Cond) (s : State) : Host.Outcome State Fault Refusal :=
  whenever (decide (condKind c = .event) && due s.now (condRec s c).recover) s
    (runCondition c (eventRecoveryExpires s.now))

/-- What a condition does when its latching has been changed from yes to no (R137). -/
def unlatched (now : Nat) (c : Cond) (e : CondEntry) (r : CondRec) : Moved :=
  match condKind c, r.state with
  | .level, .fault => if condRaw c r then stay r else levelRecover now e r
  | .event, .fault => stay { r with recover := startTimer now e.recovery }
  | .level, _ | .event, _ => stay r

/-- One condition under a Condition Table that came into force (R137): only a latching changed from yes to no acts, and
the action level is worked out again, with its trigger, before the next condition's turn (assumption 32). -/
def relatch (x : LatchingChange) (s : State) (c : Cond) : State :=
  if x.before.get (condNo c) && !x.after.get (condNo c) then runCondition c (unlatched s.now c) s else s

/-- CM takes a Condition Table that came into force (R137): the latching fields, by condition number (assumption 32),
then the action level. -/
def takeConditionTable (x : LatchingChange) (s : State) : State :=
  reworkAction (allConds.foldl (relatch x) s)

/-- CONDITION_TABLE_IN_FORCE (R137). -/
def execConditionTableInForce (s : State) : Host.Outcome State Fault Refusal :=
  running s fun s =>
    match s.mail.condTable with
    | [] => s
    | x :: rest => takeConditionTable x { s with mail := { s.mail with condTable := rest } }

/-- What RECOVER does to a condition's record (R142). -/
def recovered (now : Nat) (c : Cond) (e : CondEntry) (r : CondRec) : Moved :=
  match r.state, condKind c with
  | .fault, .level => if condRaw c r then stay r else levelRecover now e r
  | .fault, .event => eventRecover now e r
  | .clear, _ | .alert, _ | .recovering, _ => stay r

/-- Whether RECOVER of a condition is refused (R142). -/
def recoverRefused (c : Cond) (r : CondRec) : Bool :=
  decide (r.state = .fault) && decide (condKind c = .level) && condRaw c r

/-- The named conditions leave the latched report set (R147); numbers above 15 do not come here. -/
def dropLatched (numbers : List Byte) (latched : Row 16 Bool) : Row 16 Bool :=
  numbers.foldl (fun x n => x.set (Fin.ofNat 16 n.toNat) false) latched

/-- CLEAR_NOTICE at CM (R147). The fresh NOTICE of a set left non-empty is placed here, before MU places the reply, so
on an idle transmitter the NOTICE goes out first (assumption 31). -/
def clearNotices (numbers : List Byte) (s : State) : State :=
  let latched := dropLatched numbers s.cm.latched
  let s := { s with cm := { s.cm with latched := latched } }
  if anyLatched latched then placeNotice s
  else { s with cm := { s.cm with outstanding := false }, up := { s.up with notice := none } }

end Sys2Proof.Machine
end

