-- ==== Sys2Proof/Config.lean ====
section
/-! DEFINITION. The free values: what the spec leaves open and the part nevertheless produces. Each is an opaque
constant without a body, so nothing in Lean can evaluate it or prove a value of it; every statement holds whatever
it is. -/

namespace Sys2Proof.Config

open Sys2Proof.Machine

/-! The codes that replies carry for enumerations section 11.6 does not list (assumption 11). -/

/-- Code of FRESH (true) or STALE (false) in READ_STATE (R20). -/
opaque freshnessCode : Bool → Byte

/-- Code of REFERENCED (true) or UNREFERENCED (false) in READ_STATE (R20). -/
opaque referencingCode : Bool → Byte

/-- Code of RUN or CONFIG in READ_INFO and READ_STATE (R166, R167). -/
opaque configStateCode : ConfigState → Byte

/-- Code of the reset cause in READ_INFO (R166). -/
opaque resetCauseCode : ResetCause → Byte

/-- Code of a Module record's state in READ_MODULES (R121). -/
opaque moduleStateCode : ModuleState → Byte

/-- Code of the outstanding field in READ_MODULES (R121). -/
opaque outstandingCode : Option PollKind → Byte

/-- Code of a Poll group entry's content in READ_MODULES (R121). -/
opaque pollEntryCode : Option PollKind → Byte

/-- The three transmitter states of a link (R115), without the frame. -/
inductive TxState where
  | idle | waking | sending
deriving DecidableEq, Repr

/-- Code of a link's transmitter state in READ_MODULES (R121). -/
opaque txStateCode : TxState → Byte

/-- Code of the port state in READ_STATE (R162). -/
opaque portStateCode : PortState → Byte

/-- Code of a delivery's phase in READ_STATE (R134). -/
opaque phaseCode : Phase → Byte

/-- The one byte by which READ_STATE names a member of the ack set (R134, assumption 12). -/
opaque ackMemberCode : Link → Slot → Byte

/-- What READ_STATE sends in place of the further items of an empty Delivering slot (R134, assumption 12). -/
opaque emptyDeliveringRest : List Byte

/-- The ten-digit stream code under which a PASS_UP is sent whose two code bytes hold a number above 1023
(assumption 20). -/
opaque wideStreamCode : Nat → BitVec 10

end Sys2Proof.Config
end

