-- ==== Sys2Proof/Machine/LinkOps.lean ====
section
/-! DEFINITION. The operations of a Segment Link Controller that several events share: the grant and the transmission
(R115 to R118), entering JOINING (R105), a miss (R108), becoming BROKEN (R109), the set-up (R103) and the offers to the
Pass queue (R114). -/

namespace Sys2Proof.Machine

/-- The Link Parameters in force, and this link's Module Table entry of a slot. -/
def moduleEntry (s : State) (l : Link) (k : Slot) : ModuleEntry :=
  (s.mu.tables.modules.get l).get k

/-- The Module record of a slot. -/
def moduleRec (s : State) (l : Link) (k : Slot) : ModuleRec :=
  (s.links.get l).modules.get k

/-- A Module record changed. -/
def updModule (l : Link) (k : Slot) (f : ModuleRec → ModuleRec) (s : State) : State :=
  updLink l (fun c => { c with modules := c.modules.modify k f }) s

/-- A link's statistics counter one up. -/
def countLink (l : Link) (i : Fin 13) (s : State) : State :=
  updLink l (fun c => { c with stats := bumpAt i c.stats }) s

/-- The module a frame is transmitted to; APPLY and FORWARDED frames are addressed to none (section 6.3). -/
def frameAddress : LinkFrame → Option Slot
  | .pattern (.block k _ _) => some k
  | .join k _ => some k
  | .poll k => some k
  | .pattern (.apply _) | .forwarded _ => none

/-! ## The arbiter -/

/-- The member that comes after another in the rotation order (R116). -/
def memberAfter : Member → Member
  | .pattern => .pass
  | .pass => .pollGroup
  | .pollGroup => .pattern

/-- The first requesting member after the last granted one (R116). -/
def rotationChoice (c : Slc) : Option Member :=
  [memberAfter c.lastGranted, memberAfter (memberAfter c.lastGranted), c.lastGranted].find? (requests c)

/-- The grant after a transmission (R116): insistent Pattern, else rotation. -/
def grant (p : LinkParams) (c : Slc) : Option Member :=
  if p.insistent && decide (c.lastGranted = .pattern) && requests c .pattern then some .pattern else rotationChoice c

/-- The next slot address in the order 0, 1, 2, 3, 0. -/
def slotAfter (k : Slot) : Slot := k + 1

/-- The slots in the order in which the Poll group is searched (R117). -/
def servingOrder (last : Slot) : List Slot :=
  [slotAfter last, slotAfter (slotAfter last), slotAfter (slotAfter (slotAfter last)), last]

/-- The Poll group's choice: the first filled slot after the last served one (R117). -/
def pollChoice (c : Slc) : Option (Slot × PollKind) :=
  (servingOrder c.lastServed).findSome? fun k => (c.poll.get k).map fun kind => (k, kind)

/-- The frame of a Poll group entry; a JOIN carries the window in force as it is transmitted (R101). -/
def pollFrame (windows : Row 4 ModuleEntry) (k : Slot) : PollKind → LinkFrame
  | .join => .join k (windows.get k)
  | .poll => .poll k

/-- The head frame of a granted member, and the controller without it (R115, R117). -/
def takeHead (windows : Row 4 ModuleEntry) (m : Member) (c : Slc) : Option (LinkFrame × Slc) :=
  match m with
  | .pattern =>
    match c.patternQ with
    | f :: rest => some (.pattern f, { c with patternQ := rest })
    | [] => none
  | .pass =>
    match c.passQ with
    | f :: rest => some (.forwarded f, { c with passQ := rest })
    | [] => none
  | .pollGroup =>
    (pollChoice c).map fun (k, kind) =>
      (pollFrame windows k kind, { c with poll := c.poll.set k none, lastServed := k })

/-- The parked member (R118). -/
def parkedMember (p : LinkParams) (c : Slc) : Member :=
  match p.parkMode with
  | .lastMember => c.lastGranted
  | .defaultMember => p.defaultMember

/-- The transmitter becomes IDLE and the arbiter parks (R118). -/
def park (p : LinkParams) (c : Slc) : Slc :=
  { c with tx := .idle, lastGranted := memberBefore (parkedMember p c) }

/-- A frame's transmission starts: it carries the transmit sequence, which advances (R115). -/
def startSending (m : Member) (f : LinkFrame) (c : Slc) : Slc :=
  { c with tx := .sending f c.txSeq, txSeq := c.txSeq + 1, lastGranted := m }

/-- The member chosen sends its head frame; with none the transmitter is IDLE and parked (R115, assumption 9). -/
def sendOrPark (p : LinkParams) (windows : Row 4 ModuleEntry) (choice : Option Member) (c : Slc) : Slc :=
  match choice.bind fun m => (takeHead windows m c).map fun fc => (m, fc) with
  | some (m, f, c') => startSending m f c'
  | none => park p c

/-- The end of a transmission: the next grant, or IDLE and parked (R115, R116). -/
def nextGrant (p : LinkParams) (windows : Row 4 ModuleEntry) (c : Slc) : Slc :=
  sendOrPark p windows (grant p c) c

/-- The end of a wake sequence: the rotation from the parked member on decides alone, so that the parked member wins
where it requests, also under insistent pattern ON (R118, assumption 29). -/
def wakeGrant (p : LinkParams) (windows : Row 4 ModuleEntry) (c : Slc) : Slc :=
  sendOrPark p windows (rotationChoice c) c

/-- The next grant on a link. -/
def grantNext (l : Link) (s : State) : State :=
  updLink l (nextGrant s.mu.tables.link (s.mu.tables.modules.get l)) s

/-- The grant at the end of a link's wake sequence. -/
def grantAtWake (l : Link) (s : State) : State :=
  updLink l (wakeGrant s.mu.tables.link (s.mu.tables.modules.get l)) s

/-! ## Modules -/

/-- The record and the Poll group entry of a module that enters JOINING (R105). -/
def joinSlot (k : Slot) (c : Slc) : Slc :=
  { c with
    modules := c.modules.modify k fun m => { m with state := .joining, misses := 0, outstanding := none }
    poll := c.poll.set k (some .join) }

/-- A module enters JOINING (R105); a transmitter that is IDLE wakes for the JOIN, and the link reports where the
module leaves BROKEN (R112). -/
def enterJoining (l : Link) (k : Slot) (s : State) : State :=
  let t := wake l (updLink l (joinSlot k) s)
  if (moduleRec s l k).state = .broken then reportLink l t else t

/-- Whether a Pattern queue frame is a block to this slot. -/
def isBlockTo (k : Slot) : PatternFrame → Bool
  | .block j _ _ => decide (j = k)
  | .apply _ => false

/-- Whether a frame is a SEGMENT_BLOCK. -/
def isBlock : LinkFrame → Bool
  | .pattern (.block _ _ _) => true
  | .pattern (.apply _) | .forwarded _ | .join _ _ | .poll _ => false

/-- What isolation ON takes from a module that becomes BROKEN (R109): its Poll group entry, its queued blocks and its
reply timer. -/
def silence (k : Slot) (c : Slc) : Slc :=
  { c with
    poll := c.poll.set k none
    patternQ := c.patternQ.filter fun f => !isBlockTo k f
    modules := c.modules.modify k fun m => { m with outstanding := none } }

/-- The counts of a transmission cut short (R109): it completes at once, and the completion of a block is counted
(R113, assumption 10). -/
def countCut (f : LinkFrame) (c : Slc) : Slc :=
  let c := { c with stats := bumpAt Stat.lnkTxCut c.stats }
  if isBlock f then { c with stats := bumpAt Stat.lnkBlocksSent c.stats } else c

/-- A transmission to this slot is cut short, and so completes at once (R109). -/
def cutShort (l : Link) (k : Slot) (s : State) : State :=
  match (s.links.get l).tx with
  | .sending f _ =>
    if frameAddress f = some k then grantNext l (updLink l (countCut f) s) else s
  | .idle | .waking => s

/-- A module becomes BROKEN (R109): SLC tells DU, isolation ON silences it, and the link reports (R112). -/
def becomeBroken (l : Link) (k : Slot) (s : State) : State :=
  let s := countLink l Stat.lnkBreaks (updModule l k (fun m => { m with state := .broken }) s)
  let s := { s with mail := { s.mail with broken := s.mail.broken ++ [(l, k)] } }
  let s := if s.mu.isolation then cutShort l k (updLink l (silence k) s) else s
  reportLink l s

/-- A module gains a miss (R108). -/
def miss (l : Link) (k : Slot) (s : State) : State :=
  let s := countLink l Stat.lnkMisses (updModule l k (fun m => { m with misses := min 15 (m.misses + 1) }) s)
  let m := moduleRec s l k
  if (m.state = .joining || m.state = .active) && decide (s.mu.tables.link.missLimit ≤ m.misses) then
    becomeBroken l k s
  else s

/-- DU charges a miss, which an ABSENT slot is passed over for (R108). -/
def chargeMiss (l : Link) (k : Slot) (s : State) : State :=
  if effState (moduleRec s l k) = .absent then s else miss l k s

/-- A link is set up again at EXIT_CONFIG (R103): its records, its Poll group, and the blocks to slots that are now
ABSENT; it ends with the four raw values (R122). -/
def setUpLink (l : Link) (s : State) : State :=
  let entries := s.mu.tables.modules.get l
  let s := updLink l (fun c =>
    { c with
      modules := entries.map moduleSetUp
      poll := entries.map pollSetUp
      patternQ := c.patternQ.filter fun f =>
        match f with
        | .block k _ _ => (entries.get k).present
        | .apply _ => true }) s
  let s := wake l s
  let raws := linkRaws s.mu.tables l (s.links.get l).modules
  let s := updLink l (fun c => { c with sent := raws }) s
  { s with mail := { s.mail with levels := s.mail.levels ++ linkReports l raws } }

/-- A load has marked these slots of a link not present while their records are not ABSENT: they are treated as ABSENT
from now on, their Poll group entries are emptied and the link reports (R101). -/
def treatAbsent (l : Link) (s : State) : State :=
  let gone (k : Slot) : Bool :=
    !(moduleEntry s l k).present && decide (effState (moduleRec s l k) ≠ .absent)
  if allSlots.any gone then
    reportLink l (updLink l (fun c =>
      { c with
        modules := c.modules.mapIdx fun k m => if gone k then { m with treatedAbsent := true } else m
        poll := c.poll.mapIdx fun k e => if gone k then none else e }) s)
  else s

/-! ## Offers -/

/-- Pattern frames are placed at the end of a link's Pattern queue (R113), and an IDLE transmitter wakes. -/
def placePattern (l : Link) (frames : List PatternFrame) (s : State) : State :=
  wake l (updLink l (fun c => { c with patternQ := c.patternQ ++ frames }) s)

/-- A FORWARDED frame is offered to a link's Pass queue (R114). -/
def offerPass (l : Link) (f : PassFrame) (s : State) : State :=
  if (s.links.get l).passQ.length < passCapacity then
    wake l (updLink l (fun c => { c with passQ := c.passQ ++ [f] }) s)
  else countLink l Stat.lnkPassDropped s

end Sys2Proof.Machine
end

