-- ==== Sys2Proof/Machine/DeliveryOps.lean ====
section
/-! DEFINITION. The Delivery Unit's shared operations: the ack set and the start of a delivery (R124, R125), the end of
a delivery (R123), APPLY (R128) and its completions (R129). -/

namespace Sys2Proof.Machine

/-- The members of an ack set formed now: every ACTIVE module (R124). -/
def activeModules (links : Both Slc) : List (Link × Slot) :=
  [Link.left, Link.right].flatMap fun l =>
    (allSlots.filter fun k => effState ((links.get l).modules.get k) == .active).map fun k => (l, k)

/-- The SEGMENT_BLOCK of a generation for one module: its window's levels in window order (R125). -/
def blockFor (modules : Both (Row 4 ModuleEntry)) (g : GenRecord) (l : Link) (k : Slot) : PatternFrame :=
  .block k g.number ((windowSegments ((modules.get l).get k)).map (g.levels.get l).get)

/-- The blocks of one link's members, in the order of slot address (R124). -/
def blocksFor (modules : Both (Row 4 ModuleEntry)) (g : GenRecord) (members : List (Link × Slot)) (l : Link) :
    List PatternFrame :=
  (members.filter fun m => decide (m.1 = l)).map fun m => blockFor modules g l m.2

/-- The raw value of NO_MODULES becomes this, and is sent if it changed (R124). -/
def setNoModules (value : Bool) (s : State) : State :=
  sendIfChanged .noModules none s.du.noModules value { s with du := { s.du with noModules := value } }

/-- Frames for one link, if it has any, are placed. -/
def placeBlocks (l : Link) (frames : List PatternFrame) (s : State) : State :=
  if frames.isEmpty then s else placePattern l frames s

/-- A delivery starts (R124). -/
def startDelivery (g : GenRecord) (s : State) : State :=
  let members := activeModules s.links
  if members.isEmpty then
    setNoModules true { s with du := { s.du with
      delivering := none, ackSet := [], applyTimer := none, stats := bumpAt Stat.duAbandonedEmpty s.du.stats } }
  else
    let blocks := blocksFor s.mu.tables.modules g members
    let s := setNoModules false { s with du := { s.du with
      delivering := some (g, .blocks), ackSet := members
      applyTimer := startTimer s.now s.mu.tables.link.applyTimeout
      applyDone := { left := false, right := false }, stats := bumpAt Stat.duDeliveries s.du.stats } }
    placeBlocks .right (blocks .right) (placeBlocks .left (blocks .left) s)

/-- A delivery has ended: the Delivering slot is emptied and the Waiting slot looked at (R123). -/
def endDelivery (s : State) : State :=
  let waiting := s.du.waiting
  let s := { s with du := { s.du with delivering := none, waiting := none, ackSet := [], applyTimer := none } }
  match waiting with
  | none => s
  | some g => startDelivery g s

/-- The ack set of a delivery in phase BLOCKS has become empty: APPLY goes to both links (R128). -/
def applyNow (g : GenRecord) (s : State) : State :=
  let s := { s with du := { s.du with delivering := some (g, .applying), applyTimer := none } }
  placePattern .right [.apply g.number] (placePattern .left [.apply g.number] s)

/-- A module leaves the ack set of the generation being delivered; if it was the last, R128 applies. -/
def leaveAckSet (g : GenRecord) (l : Link) (k : Slot) (s : State) : State :=
  let rest := s.du.ackSet.filter fun m => decide (m ≠ (l, k))
  let s := { s with du := { s.du with ackSet := rest } }
  if rest.isEmpty then applyNow g s else s

/-- SLC tells DU that an APPLY has been transmitted on a link (R129). -/
def applyTransmitted (l : Link) (s : State) : State :=
  let done := s.du.applyDone.set l true
  let s := { s with du := { s.du with applyDone := done } }
  match s.du.delivering with
  | some (g, .applying) =>
    if done.left && done.right then
      let s := { s with du := { s.du with
        applied := some (g.number, g.mode), stats := bumpAt Stat.duApplied s.du.stats } }
      endDelivery (cmApplied g.mode s)
    else s
  | some (_, .blocks) | none => s

/-- Whether a Pattern queue frame is a block of this generation. -/
def isBlockOf (gen : Byte) : PatternFrame → Bool
  | .block _ n _ => decide (n = gen)
  | .apply _ => false

/-- The blocks of a generation still queued on a link are removed (R130). -/
def dropBlocks (gen : Byte) (l : Link) (s : State) : State :=
  updLink l (fun c => { c with patternQ := c.patternQ.filter fun f => !isBlockOf gen f }) s

end Sys2Proof.Machine
end

