-- ==== Sys2Proof/Machine/Delivery.lean ====
section
/-! DEFINITION. The commands of the Delivery Unit (chapter 7). -/

namespace Sys2Proof.Machine

/-- A DU statistics counter one up. -/
def countDelivery (i : Fin 9) (s : State) : State :=
  { s with du := { s.du with stats := bumpAt i s.du.stats } }

/-- DU takes a generation record (R123). -/
def takeRecord (g : GenRecord) (s : State) : State :=
  match s.du.delivering, s.du.waiting with
  | none, _ => startDelivery g s
  | some _, none => { s with du := { s.du with waiting := some g } }
  | some _, some _ => countDelivery Stat.duSuperseded { s with du := { s.du with waiting := some g } }

/-- GENERATION_TAKE (R123): the oldest record PB handed over. -/
def execGenerationTake (s : State) : Host.Outcome State Fault Refusal :=
  running s fun s =>
    match s.mail.records with
    | [] => s
    | g :: rest => takeRecord g { s with mail := { s.mail with records := rest } }

/-- DU takes a BLOCK_ACK (R126). -/
def takeAck (a : Ack) (s : State) : State :=
  match s.du.delivering with
  | none => countDelivery Stat.duAcksStale s
  | some (g, _) =>
    if g.number ≠ a.gen then countDelivery Stat.duAcksStale s
    else if s.du.ackSet.contains (a.link, a.slot) then
      leaveAckSet g a.link a.slot (countDelivery Stat.duAcks s)
    else countDelivery Stat.duAcksUnexpected s

/-- BLOCK_ACK_TAKE (R126): the oldest acknowledgement one link handed over. -/
def execBlockAckTake (l : Link) (s : State) : Host.Outcome State Fault Refusal :=
  running s fun s =>
    match s.mail.acks.find? fun a => decide (a.link = l) with
    | none => s
    | some a => takeAck a { s with mail := { s.mail with acks := s.mail.acks.erase a } }

/-- DU takes a BROKEN notice (R127). -/
def takeBroken (l : Link) (k : Slot) (s : State) : State :=
  match s.du.delivering with
  | some (g, .blocks) =>
    if s.du.ackSet.contains (l, k) then leaveAckSet g l k (countDelivery Stat.duBrokenDrops s) else s
  | some (_, .applying) | none => s

/-- BROKEN_NOTICE_TAKE (R127): the oldest notice one link gave. -/
def execBrokenNoticeTake (l : Link) (s : State) : Host.Outcome State Fault Refusal :=
  running s fun s =>
    match s.mail.broken.find? fun m => decide (m.1 = l) with
    | none => s
    | some m => takeBroken m.1 m.2 { s with mail := { s.mail with broken := s.mail.broken.erase m } }

/-- The delivering generation is abandoned at its apply timer (R130), in the order the rule lists. -/
def abandon (g : GenRecord) (s : State) : State :=
  let s := s.du.ackSet.foldl (fun s m => chargeMiss m.1 m.2 s) s
  let s := dropBlocks g.number .right (dropBlocks g.number .left s)
  let s := { s with du := { s.du with ackSet := [] } }
  let s := countDelivery Stat.duAbandonedTimeout (sendEvent .applyAbandoned s)
  endDelivery s

/-- The apply timer expires (R130). -/
def expireApply (s : State) : State :=
  match s.du.delivering with
  | some (g, _) => abandon g s
  | none => { s with du := { s.du with applyTimer := none } }

/-- APPLY_TIMER_EXPIRY (R130). -/
def execApplyTimerExpiry (s : State) : Host.Outcome State Fault Refusal :=
  whenever (due s.now s.du.applyTimer) s expireApply

end Sys2Proof.Machine
end

