-- ==== Sys2Proof/Machine/Operands.lean ====
section
/-! DEFINITION. What the bytes of received frames say, and the bytes of sent frames (chapter 11): vehicle frames, object
frames and reports, the two envelopes, the frames of a segment link, NOTICE and reply payloads. -/

namespace Sys2Proof.Machine

/-! ## Vehicle frames (section 11.2, R2) -/

/-- What a vehicle frame that passes its check carries. -/
structure VehicleFrame where
  speed : Option Nat
  steer : Option Int
  pitch : Option Int
  request : Option BeamRequest
  road : Option RoadClass
  weather : Option Nat
deriving DecidableEq, Repr

/-- One optional value at the head of a run of bytes: its bytes are there and say a value in its range, or the frame
fails. -/
def takeValue {α : Type} (present : Bool) (width : Nat) (read : List Byte → Option α) (bs : List Byte) :
    Option (Option α × List Byte) :=
  if present then
    if width ≤ bs.length then (read bs).map fun v => (some v, bs.drop width) else none
  else some (none, bs)

/-- A value kept if it lies in its range. -/
def ifWithin (lo hi x : Int) : Option Int :=
  if within lo hi x then some x else none

/-- A value kept if it lies in its range. -/
def ifNatWithin (lo hi x : Nat) : Option Nat :=
  if natWithin lo hi x then some x else none

/-- The whole-frame check of a vehicle frame (R2, R179): none where it is rejected. -/
def parseVehicle (payload : List Byte) : Option VehicleFrame :=
  match payload with
  | [] => none
  | p :: bs =>
    if p = 0 || p.getLsbD 6 || p.getLsbD 7 then none
    else do
      let (speed, bs) ← takeValue (p.getLsbD 0) 2 (fun b => ifNatWithin 0 2000 (u16 b 0)) bs
      let (steer, bs) ← takeValue (p.getLsbD 1) 2 (fun b => ifWithin (-7200) 7200 (s16 b 0)) bs
      let (pitch, bs) ← takeValue (p.getLsbD 2) 1 (fun b => ifWithin (-50) 50 (s8 b 0)) bs
      let (request, bs) ← takeValue (p.getLsbD 3) 1 (fun b => requestOf (u8 b 0)) bs
      let (road, bs) ← takeValue (p.getLsbD 4) 1 (fun b => roadOf (u8 b 0)) bs
      let (weather, bs) ← takeValue (p.getLsbD 5) 1 (fun b => ifNatWithin 0 7 (u8 b 0)) bs
      if bs.isEmpty then
        some { speed := speed, steer := steer, pitch := pitch, request := request, road := road
               weather := weather }
      else none

/-! ## Object frames (section 11.2, R23, R24) -/

/-- An object frame that passes its check; a report is none where it is invalid (R24). -/
structure ObjectFrame where
  number : Byte
  index : Nat
  last : Bool
  announced : Nat
  reports : List (Option Report)
deriving DecidableEq, Repr

/-- The eight bytes from position `i` read as one number, the first most significant. -/
def u64 (bs : List Byte) (i : Nat) : BitVec 64 :=
  BitVec.ofNat 64 ((List.range 8).foldl (fun n k => n * 256 + u8 bs (i + k)) 0)

/-- The report in the eight bytes from position `i` (section 11.2), none where it is invalid (R24, R179). -/
def parseReport (bs : List Byte) (i : Nat) : Option Report :=
  let w := u64 bs i
  let left := (w.extractLsb' 38 11).toInt
  let right := (w.extractLsb' 27 11).toInt
  let upper := (w.extractLsb' 19 8).toInt
  let low := (w.extractLsb' 11 8).toInt
  let dist := (w.extractLsb' 0 11).toNat
  let lower : Option Int := if low = -128 then none else some low
  let distance : Option Nat := if dist = 2047 then none else some dist
  match classOf (w.extractLsb' 53 3).toNat with
  | none => none
  | some cls =>
    if within (-400) 400 left && within (-400) 400 right && within (-100) 100 upper && decide (left ≤ right)
        && lower.all (fun y => within (-100) 100 y && decide (y ≤ upper))
        && distance.all (fun d => decide (d ≤ 1000))
    then some { id := w.extractLsb' 56 8, cls := cls, confidence := (w.extractLsb' 49 4).toNat, left := left
                right := right, upper := upper, lower := lower, distance := distance }
    else none

/-- Whether a frame is the empty scene (R23). -/
def isEmptyScene (index : Nat) (last : Bool) (announced count : Nat) : Bool :=
  decide (index = 0) && last && decide (announced = 0) && decide (count = 0)

/-- The whole-frame check of an object frame (R23, R179): none where it is malformed. -/
def parseObject (payload : List Byte) : Option ObjectFrame :=
  let header := payload.getD 1 0
  let index := (header.extractLsb' 4 4).toNat
  let last := header.getLsbD 3
  let count := (header.extractLsb' 0 3).toNat
  let announced := u8 payload 2
  if payload.length < 3 || decide (10 < index) || (decide (index = 10) && !last) || (last && decide (33 < announced))
      || decide (3 < count) || (decide (count = 0) && !isEmptyScene index last announced count)
      || decide (payload.length ≠ 3 + 8 * count)
  then none
  else some { number := payload.getD 0 0, index := index, last := last, announced := announced
              reports := (List.range count).map fun k => parseReport payload (3 + 8 * k) }

/-! ## The envelope (section 11.1) -/

/-- The stream code of envelope bytes 0 and 1. -/
def envelopeCode (bs : List Byte) : BitVec 10 :=
  BitVec.ofNat 10 (u8 bs 0 * 4 + u8 bs 1 / 64)

/-- The sequence in envelope byte 1. -/
def envelopeSeq (bs : List Byte) : BitVec 4 :=
  (bs.getD 1 0).extractLsb' 2 4

/-- LAST in envelope byte 1. -/
def envelopeLast (bs : List Byte) : Bool :=
  (bs.getD 1 0).getLsbD 1

/-- The first three bytes of an envelope; bit 0 of byte 1 is sent as 0. -/
def envelopeHead (code : BitVec 10) (seq : BitVec 4) (last : Bool) (length : Nat) : List Byte :=
  [BitVec.ofNat 8 (code.toNat / 4), BitVec.ofNat 8 (code.toNat % 4 * 64 + seq.toNat * 4 + if last then 2 else 0),
   BitVec.ofNat 8 length]

/-- A run of bytes followed by its check value. -/
def withCheck (bs : List Byte) : List Byte :=
  bs ++ checkBytes bs

/-- The bytes of a frame on UPTX or UPRX. -/
def upWire (f : UpFrame) : List Byte :=
  withCheck (envelopeHead f.code f.seq f.last f.payload.length ++ f.payload)

/-- How the receiver of the upstream port finds the bytes of a frame (R150). -/
inductive UpArrival where
  | cut
  | long
  | badCheck
  | good (frame : UpFrame)
deriving DecidableEq, Repr

/-- What the bytes from a frame start up to its end or to line silence are (R150). -/
def upArrival (bs : List Byte) : UpArrival :=
  if bs.length < 3 then .cut
  else if maxPayload < u8 bs 2 then .long
  else if bs.length < 3 + u8 bs 2 + 2 then .cut
  else if bs.drop (3 + u8 bs 2) |>.take 2 |> (· ≠ checkBytes (bs.take (3 + u8 bs 2))) then .badCheck
  else .good { code := envelopeCode bs, seq := envelopeSeq bs, last := envelopeLast bs
               payload := (bs.drop 3).take (u8 bs 2) }

/-! ## Frames of a segment link (sections 11.1 and 11.4) -/

/-- A payload padded to whole words with one byte sent as 0. -/
def padWords (payload : List Byte) : List Byte :=
  if payload.length % 2 = 0 then payload else payload ++ [0]

/-- The stream code of a kind and a module address. -/
def linkCode (kind addr : Nat) : BitVec 10 :=
  BitVec.ofNat 10 (kind * 4 + addr)

/-- The stream code and payload of a frame carried through the part, as FORWARDED carries them. -/
def passPayload (f : PassFrame) : List Byte :=
  bytes2 f.code.toNat ++ byte1 f.payload.length ++ f.payload

/-- Stream code and payload of a frame the part sends on a link. -/
def linkFrameBody : LinkFrame → BitVec 10 × List Byte
  | .pattern (.block k gen levels) => (linkCode 16 k.val, gen :: levels.map (BitVec.ofNat 8))
  | .pattern (.apply gen) => (linkCode 17 0, [gen])
  | .join k w =>
    (linkCode 18 k.val, byte1 w.firstRow ++ byte1 w.rowCount ++ byte1 w.firstColumn ++ byte1 w.columnCount)
  | .poll k => (linkCode 19 k.val, [])
  | .forwarded f => (linkCode 20 0, passPayload f)

/-- The bytes of a frame on LLTX or RLTX. -/
def linkWire (f : LinkFrame) (seq : BitVec 4) : List Byte :=
  let (code, payload) := linkFrameBody f
  let padded := padWords payload
  withCheck (envelopeHead code seq true (padded.length / 2) ++ padded)

/-- A frame from a driver module. -/
inductive ModuleFrame where
  | blockAck (slot : Slot) (gen : Byte)
  | status (slot : Slot) (band : Nat) (selfFallback : Bool) (failed : List Nat)
  | passUp (slot : Slot) (code : Nat) (payload : List Byte)
deriving DecidableEq, Repr

/-- How an SLC finds the bytes of a frame from its link (R104). -/
inductive LinkArrival where
  | error
  | rejected
  | good (frame : ModuleFrame)
deriving DecidableEq, Repr

/-- Whether two members of a list are equal. -/
def hasRepeat : List Nat → Bool
  | [] => false
  | x :: xs => xs.contains x || hasRepeat xs

/-- The payload of a STATUS (R104, R179); none where it is rejected. -/
def parseStatus (slot : Slot) (p : List Byte) : Option ModuleFrame :=
  let n := u8 p 2
  let failed := (List.range n).map fun i => u8 p (3 + i)
  if p.length < 4 || decide (7 < u8 p 0) || decide (8 < n) || decide (p.length ≠ 2 * ((3 + n + 1) / 2))
      || hasRepeat failed
  then none
  else (boolOf (u8 p 1)).map fun b => .status slot (u8 p 0) b failed

/-- The payload of a PASS_UP (R104, R179); none where it is rejected. -/
def parsePassUp (slot : Slot) (p : List Byte) : Option ModuleFrame :=
  let n := u8 p 2
  if p.length < 4 || decide (maxPayload < n) || decide (p.length ≠ 2 * ((3 + n + 1) / 2)) then none
  else some (.passUp slot (u16 p 0) ((p.drop 3).take n))

/-- The frame of a kind code, a module address and a payload of whole words (R104); none where it is rejected. -/
def parseModuleFrame (kind : Nat) (slot : Slot) (p : List Byte) : Option ModuleFrame :=
  match kind with
  | 32 => if p.length = 2 then some (.blockAck slot (p.getD 0 0)) else none
  | 33 => parseStatus slot p
  | 34 => parsePassUp slot p
  | _ => none

/-- What the bytes from a frame start up to its end or to line silence are (R104). -/
def linkArrival (bs : List Byte) : LinkArrival :=
  if bs.length < 3 || decide (maxPayload < u8 bs 2) || decide (bs.length < 3 + 2 * u8 bs 2 + 2) then .error
  else if (bs.drop (3 + 2 * u8 bs 2)).take 2 ≠ checkBytes (bs.take (3 + 2 * u8 bs 2)) then .error
  else
    let code := (envelopeCode bs).toNat
    match parseModuleFrame (code / 4) (Fin.ofNat 4 code) ((bs.drop 3).take (2 * u8 bs 2)) with
    | none => .rejected
    | some f => .good f

end Sys2Proof.Machine
end

