-- ==== Sys2Proof/Machine/Links.lean ====
section
/-! DEFINITION. The commands of the Segment Link Controllers (chapter 6). -/

namespace Sys2Proof.Machine

/-- A statistics counter of the upstream port one up. -/
def countPort (i : Fin 19) (s : State) : State :=
  { s with up := { s.up with stats := bumpAt i s.up.stats } }

/-- The stream code a PASS_UP is sent under (assumption 20 where the number does not fit ten digits). -/
def passUpCode (n : Nat) : BitVec 10 :=
  if n < 1024 then BitVec.ofNat 10 n else Config.wideStreamCode n

/-- A PASS_UP is offered to the Pass-Up queue; the upstream transmitter starts if it can (R120, R160, R161). -/
def offerPassUp (f : PassFrame) (s : State) : State :=
  if s.up.passUpQ.length < passUpCapacity then
    upStart { s with up := { s.up with passUpQ := s.up.passUpQ ++ [f] } }
  else countPort Stat.upPassUpDropped s

/-- The state a STATUS leaves a module in (R107). -/
def stateAfterStatus (isolation : Bool) (m : ModuleRec) : ModuleState :=
  match m.state with
  | .absent => .absent
  | .joining =>
    match m.outstanding with
    | some (.join, _) => .active
    | some (.poll, _) | none => .joining
  | .active => .active
  | .broken => if isolation then .broken else .active

/-- A module's record after a STATUS (R107). -/
def recordAfterStatus (isolation : Bool) (band : Nat) (selfFallback : Bool) (failed : List Nat) (m : ModuleRec) :
    ModuleRec :=
  { m with
    state := stateAfterStatus isolation m, band := band, selfFallback := selfFallback, failed := failed
    outstanding := none }

/-- SLC takes a valid STATUS (R107). -/
def takeStatus (l : Link) (k : Slot) (band : Nat) (selfFallback : Bool) (failed : List Nat) (s : State) : State :=
  let m := moduleRec s l k
  let joined := decide (m.state ≠ .active) && decide (stateAfterStatus s.mu.isolation m = .active)
  let s := countLink l Stat.lnkStatusTaken
    (updModule l k (recordAfterStatus s.mu.isolation band selfFallback failed) s)
  let s := if joined then countLink l Stat.lnkJoins s else s
  let s := if decide (m.band ≠ band) || decide (m.failed ≠ failed) then trigger s else s
  reportLink l s

/-- A valid frame is taken by its kind (R104, R107, R120). -/
def takeModuleFrame (l : Link) (f : ModuleFrame) (s : State) : State :=
  match f with
  | .status k band selfFallback failed => takeStatus l k band selfFallback failed s
  | .blockAck k gen => { s with mail := { s.mail with acks := s.mail.acks ++ [⟨l, k, gen⟩] } }
  | .passUp _ code payload => offerPassUp ⟨passUpCode code, payload⟩ (countLink l Stat.lnkPassUp s)

/-- The module a frame comes from. -/
def frameSlot : ModuleFrame → Slot
  | .blockAck k _ | .status k _ _ _ | .passUp k _ _ => k

/-- SLC checks a frame from its link and takes it (R104). -/
def receiveLink (l : Link) (bytes : List Byte) (s : State) : State :=
  match linkArrival bytes with
  | .error => countLink l Stat.lnkRxErrors s
  | .rejected => countLink l Stat.lnkRxRejected s
  | .good f =>
    if effState (moduleRec s l (frameSlot f)) = .absent then countLink l Stat.lnkRxRejected s
    else takeModuleFrame l f (countLink l Stat.lnkRxFrames
      (updModule l (frameSlot f) (fun m => { m with misses := 0 }) s))

/-- LINK_FRAME_RECEIVE (R104). -/
def execLinkFrameReceive (l : Link) (bytes : List Byte) (s : State) : Host.Outcome State Fault Refusal :=
  running s (receiveLink l bytes)

/-- A module's reply timer. -/
def replyTimer (m : ModuleRec) : Timer :=
  m.outstanding.map Prod.snd

/-- A module's reply timer expires (R108); a record treated as ABSENT gains no miss (assumption 8). -/
def expireReply (l : Link) (k : Slot) (s : State) : State :=
  let absent := decide (effState (moduleRec s l k) = .absent)
  let s := countLink l Stat.lnkReplyTimeouts (updModule l k (fun m => { m with outstanding := none }) s)
  if absent then s else miss l k s

/-- REPLY_TIMER_EXPIRY (R108). -/
def execReplyTimerExpiry (l : Link) (k : Slot) (s : State) : Host.Outcome State Fault Refusal :=
  whenever (due s.now (replyTimer (moduleRec s l k))) s (expireReply l k)

/-- What the poll timer's expiry makes of a slot's Poll group entry (R106). -/
def pollEntry (isolation : Bool) (m : ModuleRec) (e : Option PollKind) : Option PollKind :=
  if e.isSome || m.outstanding.isSome then e
  else
    match effState m with
    | .absent => none
    | .joining => some .join
    | .active => some .poll
    | .broken => if isolation then none else some .poll

/-- A link's poll timer expires (R106). -/
def expirePoll (l : Link) (s : State) : State :=
  wake l (updLink l (fun c =>
    { c with
      poll := c.poll.mapIdx fun k e => pollEntry s.mu.isolation (c.modules.get k) e
      pollTimer := startTimer s.now s.mu.tables.link.pollPeriod }) s)

/-- POLL_TIMER_EXPIRY (R106). -/
def execPollTimerExpiry (l : Link) (s : State) : Host.Outcome State Fault Refusal :=
  whenever (due s.now (s.links.get l).pollTimer) s (expirePoll l)

/-- WAKE_SEQUENCE_END (R115): the arbiter makes the grant that follows the parking (R118). -/
def execWakeSequenceEnd (l : Link) (s : State) : Host.Outcome State Fault Refusal :=
  whenever (decide ((s.links.get l).tx = .waking)) s (grantAtWake l)

/-- The reply timer of the module a POLL or JOIN was addressed to is started, unless it is ABSENT by now (R106). -/
def startReplyTimer (l : Link) (k : Slot) (kind : PollKind) (s : State) : State :=
  if effState (moduleRec s l k) = .absent then s
  else updModule l k
    (fun m => { m with outstanding := some (kind, s.now + msToUs s.mu.tables.link.replyTimeout) }) s

/-- What the completion of a frame brings about, by its kind (R106, R113, R114, R129). -/
def frameSent (l : Link) (f : LinkFrame) (s : State) : State :=
  match f with
  | .pattern (.block _ _ _) => countLink l Stat.lnkBlocksSent s
  | .pattern (.apply _) => applyTransmitted l s
  | .forwarded _ => countLink l Stat.lnkPassSent s
  | .join k _ => startReplyTimer l k .join s
  | .poll k => startReplyTimer l k .poll s

/-- LINK_TX_COMPLETE (R115): the frame's completion, then the next grant. -/
def execLinkTxComplete (l : Link) (s : State) : Host.Outcome State Fault Refusal :=
  running s fun s =>
    match (s.links.get l).tx with
    | .sending f _ => grantNext l (frameSent l f s)
    | .idle | .waking => s

end Sys2Proof.Machine
end

