-- ==== Sys2Proof/Machine/TableCodec.lean ====
section
/-! DEFINITION. The entries of the Table Store in bytes (section 11.5, R180), their entry checks and the table checks
(R174). An entry's decoder answers none where the entry fails its check. -/

namespace Sys2Proof.Machine

/-! ## One decoder and one encoder per kind of entry -/

/-- Two unsigned bytes from a position, in a range. -/
def field2 (lo hi : Nat) (bs : List Byte) (i : Nat) : Option Nat := ifNatWithin lo hi (u16 bs i)

/-- One unsigned byte, in a range. -/
def field1 (lo hi : Nat) (bs : List Byte) (i : Nat) : Option Nat := ifNatWithin lo hi (u8 bs i)

/-- Two signed bytes, in a range. -/
def sfield2 (lo hi : Int) (bs : List Byte) (i : Nat) : Option Int := ifWithin lo hi (s16 bs i)

/-- One signed byte, in a range. -/
def sfield1 (lo hi : Int) (bs : List Byte) (i : Nat) : Option Int := ifWithin lo hi (s8 bs i)

/-- A value kept if a check holds. -/
def keepIf {α : Type} (ok : Bool) (x : α) : Option α := if ok then some x else none

/-- Curve entry 0: the breakpoints, each 1..7200, rising strictly (R73, R174). -/
def decodeBreakpoints (bs : List Byte) (c : CurveTable) : Option CurveTable := do
  let b1 ← field2 1 7200 bs 0
  let b2 ← field2 1 7200 bs 2
  let b3 ← field2 1 7200 bs 4
  let b4 ← field2 1 7200 bs 6
  keepIf (decide (b1 < b2) && decide (b2 < b3) && decide (b3 < b4)) { c with b1 := b1, b2 := b2, b3 := b3, b4 := b4 }

/-- Nine swivel values of a band, each −150..150, from byte 2 (R73). -/
def decodeSwivels (bs : List Byte) : Option (Row 9 Int) :=
  let values : Row 9 Int := Row.tabulate fun i => s16 bs (2 + 2 * i.val)
  keepIf (values.cells.all (within (-150) 150)) values

/-- Curve entries 1 to 8: a speed band (R73). -/
def decodeBand (bs : List Byte) : Option CurveBand := do
  let bound ← field2 0 2000 bs 0
  let values ← decodeSwivels bs
  some { bound := bound, values := values }

/-- A Class Policy entry (R37). -/
def decodePolicy (bs : List Byte) : Option ClassPolicy := do
  let minConfidence ← field1 0 15 bs 0
  let confirmScenes ← field1 1 8 bs 1
  let shadowTentative ← boolOf (u8 bs 2)
  let holdTime ← field2 0 5000 bs 3
  let marginLeft ← field1 0 100 bs 5
  let marginRight ← field1 0 100 bs 6
  let marginTop ← field1 0 100 bs 7
  let gate ← field1 0 100 bs 8
  let hard ← boolOf (u8 bs 10)
  let priority ← field1 0 7 bs 11
  let growth ← field1 0 20 bs 12
  some { minConfidence := minConfidence, confirmScenes := confirmScenes, shadowTentative := shadowTentative
         holdTime := holdTime, marginLeft := marginLeft, marginRight := marginRight, marginTop := marginTop
         gate := gate, shadowLevel := u8 bs 9, hard := hard, priority := priority, growth := growth }

/-- A Margin distance band (R84). -/
def decodeMarginBand (bs : List Byte) : Option MarginBand := do
  let bound ← field2 0 1000 bs 0
  let extra ← field1 0 100 bs 2
  some { bound := bound, extra := extra }

/-- A Fixed Window entry (R87, R174). -/
def decodeWindow (bs : List Byte) : Option FixedWindow := do
  let lamp ← windowLampOf (u8 bs 0)
  let left ← sfield2 (-400) 400 bs 1
  let right ← sfield2 (-400) 400 bs 3
  let upper ← sfield1 (-100) 100 bs 5
  let lower ← sfield1 (-100) 100 bs 6
  let kind ← windowKindOf (u8 bs 7)
  keepIf (decide (left ≤ right) && decide (lower ≤ upper))
    { lamp := lamp, left := left, right := right, upper := upper, lower := lower, kind := kind, level := u8 bs 8
      modes := bs.getD 9 0 }

/-- A Condition Table entry, with the ranges of the condition's kind (R136, R174). -/
def decodeCondition (kind : CondKind) (bs : List Byte) : Option CondEntry := do
  let report ← reportOf (u8 bs 0)
  let persistence ← match kind with
    | .level => field2 0 10000 bs 1
    | .event => field2 1 255 bs 1
  let recovery ← match kind with
    | .level => field2 0 10000 bs 3
    | .event => field2 10 10000 bs 3
  let latching ← boolOf (u8 bs 5)
  let action ← actionOf (u8 bs 6)
  some { report := report, persistence := persistence, recovery := recovery, latching := latching, action := action }

/-- The Vehicle Parameters entry (R3, section 1.6). -/
def decodeVehicle (bs : List Byte) : Option VehicleParams := do
  let speedLimit ← field2 50 5000 bs 0
  let steerLimit ← field2 50 5000 bs 2
  let pitchLimit ← field2 50 5000 bs 4
  let requestLimit ← field2 50 5000 bs 6
  let roadLimit ← field2 50 5000 bs 8
  let weatherLimit ← field2 50 5000 bs 10
  let speedSource ← sourceOf (u8 bs 12)
  let pulsesPerKm ← field2 2000 25000 bs 13
  let speedTimeout ← field2 200 5000 bs 15
  let steerSource ← sourceOf (u8 bs 17)
  let countsPerDegree ← field1 1 64 bs 18
  let disagreeLimit ← field2 10 1000 bs 19
  some { speedLimit := speedLimit, steerLimit := steerLimit, pitchLimit := pitchLimit, requestLimit := requestLimit
         roadLimit := roadLimit, weatherLimit := weatherLimit, speedSource := speedSource
         pulsesPerKm := pulsesPerKm, speedTimeout := speedTimeout, steerSource := steerSource
         countsPerDegree := countsPerDegree, disagreeLimit := disagreeLimit }

/-- The Build Parameters entry (R91). -/
def decodeBuild (bs : List Byte) : Option BuildParams := do
  let swivelStep ← field1 1 50 bs 0
  let upStep ← field1 1 255 bs 1
  let downStep ← field1 1 255 bs 2
  let overtempBand ← field1 1 7 bs 4
  some { swivelStep := swivelStep, upStep := upStep, downStep := downStep, dimLevel := u8 bs 3
         overtempBand := overtempBand }

/-- A Filter Table entry (R156). -/
def decodeFilter (bs : List Byte) : Option FilterEntry := do
  let enabled ← boolOf (u8 bs 0)
  let code ← field2 0 1023 bs 1
  let mask ← field2 0 1023 bs 3
  let action ← filterActionOf (u8 bs 5)
  some { enabled := enabled, code := BitVec.ofNat 10 code, mask := BitVec.ofNat 10 mask, action := action }

/-- The zone of a segment in the twelve zone bytes from byte 5 (section 11.5). -/
def zoneBit (bs : List Byte) (i : SegNo) : Bool :=
  (bs.getD (5 + i.val / 8) 0).getLsbD (7 - i.val % 8)

/-- A Segment Map entry (R71, R174). -/
def decodeSegMap (bs : List Byte) : Option SegMapEntry := do
  let origin ← sfield2 (-400) 400 bs 0
  let columnPitch ← field1 5 40 bs 2
  let rowCentre ← sfield1 (-100) 100 bs 3
  let rowPitch ← field1 5 40 bs 4
  some { origin := origin, columnPitch := columnPitch, rowCentre := rowCentre, rowPitch := rowPitch
         high := Row.tabulate (zoneBit bs) }

/-- Whether a present slot's window stays in the lamp and holds at most 48 segments (R101, R174). -/
def windowFits (e : ModuleEntry) : Bool :=
  natWithin 0 3 e.firstRow && natWithin 1 4 e.rowCount && natWithin 0 23 e.firstColumn
    && natWithin 1 24 e.columnCount && decide (e.firstRow + e.rowCount ≤ 4)
    && decide (e.firstColumn + e.columnCount ≤ 24) && decide (windowSize e ≤ 48)

/-- Whether a present slot's window overlaps that of another present slot of its link (R174). -/
def overlapsOther (rows : Row 4 ModuleEntry) (k : Slot) (e : ModuleEntry) : Bool :=
  [(0 : Slot), 1, 2, 3].any fun j => decide (j ≠ k) && (rows.get j).present && windowsOverlap (rows.get j) e

/-- A Module Table entry; the bytes of a slot that is not present are stored unchecked (R101, R174, R180). -/
def decodeModule (rows : Row 4 ModuleEntry) (k : Slot) (bs : List Byte) : Option ModuleEntry := do
  let present ← boolOf (u8 bs 0)
  let e : ModuleEntry :=
    { present := present, firstRow := u8 bs 1, rowCount := u8 bs 2, firstColumn := u8 bs 3, columnCount := u8 bs 4 }
  keepIf (!present || (windowFits e && !overlapsOther rows k e)) e

/-- A Profile row entry: 24 levels, column 0 first (R72). -/
def decodeProfileRow (bs : List Byte) : Row 24 Nat :=
  Row.tabulate fun c => u8 bs c.val

/-- Mode entry 0: the thresholds (R70). -/
def decodeThresholds (bs : List Byte) (t : ModeTable) : Option ModeTable := do
  let townSpeed ← field2 0 2000 bs 0
  let motorwaySpeed ← field2 0 2000 bs 2
  let hysteresis ← field1 0 200 bs 4
  let adverseThreshold ← field1 1 8 bs 5
  let townThreshold ← field1 1 25 bs 6
  some { t with
    townSpeed := townSpeed, motorwaySpeed := motorwaySpeed, hysteresis := hysteresis
    adverseThreshold := adverseThreshold, townThreshold := townThreshold }

/-- Mode entries 1 to 6: a mode's row (R70, R174). -/
def decodeModeRow (bs : List Byte) : Option ModeRow := do
  let profile ← field1 0 7 bs 0
  let shadowsApply ← boolOf (u8 bs 1)
  some { profile := Fin.ofNat 8 profile, shadowsApply := shadowsApply }

/-- The Link Parameters entry (R119). -/
def decodeLink (bs : List Byte) : Option LinkParams := do
  let pollPeriod ← field2 20 1000 bs 0
  let replyTimeout ← field1 1 20 bs 2
  let missLimit ← field1 1 15 bs 3
  let insistent ← boolOf (u8 bs 4)
  let parkMode ← parkOf (u8 bs 5)
  let defaultMember ← memberOf (u8 bs 6)
  let applyTimeout ← field1 2 50 bs 7
  let sceneTimeout ← field2 50 1000 bs 8
  let buildPeriod ← field1 20 200 bs 10
  some { pollPeriod := pollPeriod, replyTimeout := replyTimeout, missLimit := missLimit, insistent := insistent
         parkMode := parkMode, defaultMember := defaultMember, applyTimeout := applyTimeout
         sceneTimeout := sceneTimeout, buildPeriod := buildPeriod }

/-! ## Writing an entry -/

/-- The rows of the Mode Table by entry, 1 to 6 (R170). -/
def setModeRow (t : ModeTable) (n : Nat) (r : ModeRow) : ModeTable :=
  match n with
  | 1 => { t with low := r }
  | 2 => { t with town := r }
  | 3 => { t with country := r }
  | 4 => { t with motorway := r }
  | 5 => { t with adverse := r }
  | _ => { t with full := r }

/-- The row of a Mode Table entry, 1 to 6. -/
def getModeRow (t : ModeTable) (n : Nat) : ModeRow :=
  match n with
  | 1 => t.low
  | 2 => t.town
  | 3 => t.country
  | 4 => t.motorway
  | 5 => t.adverse
  | _ => t.full

/-- LEFT below a bound, RIGHT from it on: the order of the entries of tables kept per lamp or link (R170). -/
def sideOf (n bound : Nat) : Link :=
  if n < bound then .left else .right

/-- A row of a profile replaced: rows 0 to 3 LEFT, 4 to 7 RIGHT (R170). -/
def setProfileRow (p : Profile) (n : Nat) (r : Row 24 Nat) : Profile :=
  let l := sideOf n 4
  { p with levels := p.levels.set l ((p.levels.get l).set (Fin.ofNat 4 n) r) }

/-- A Profile Table entry, row entries and edge-rule entries (R170). -/
def writeProfile (n : Nat) (bs : List Byte) (t : Row 8 Profile) : Option (Row 8 Profile) :=
  let i : Fin 8 := Fin.ofNat 8 (n / 9)
  if n % 9 = 8 then
    (edgeOf (u8 bs 0)).map fun e => t.modify i fun p => { p with edge := e }
  else some (t.modify i fun p => setProfileRow p (n % 9) (decodeProfileRow bs))

/-- An entry of a table written, or none where it fails its entry check (R171, R174). -/
def writeEntry (id : TableId) (n : Nat) (bs : List Byte) (t : Tables) : Option Tables :=
  match id with
  | .curve =>
    if n = 0 then (decodeBreakpoints bs t.curve).map fun c => { t with curve := c }
    else (decodeBand bs).map fun b =>
      { t with curve := { t.curve with bands := t.curve.bands.set (Fin.ofNat 8 (n - 1)) b } }
  | .classPolicy =>
    (decodePolicy bs).map fun p => { t with classPolicy := t.classPolicy.set (Fin.ofNat 6 n) p }
  | .margin =>
    if n = 4 then (field1 0 100 bs 2).map fun e => { t with margin := { t.margin with absentExtra := e } }
    else (decodeMarginBand bs).map fun b =>
      { t with margin := { t.margin with bands := t.margin.bands.set (Fin.ofNat 4 n) b } }
  | .window => (decodeWindow bs).map fun w => { t with window := t.window.set (Fin.ofNat 4 n) w }
  | .derate => some { t with derate := t.derate.set (Fin.ofNat 8 n) (u8 bs 0) }
  | .condition =>
    (condOf n).bind fun c => (decodeCondition (condKind c) bs).map fun e =>
      { t with condition := t.condition.set (condNo c) e }
  | .vehicle => (decodeVehicle bs).map fun v => { t with vehicle := v }
  | .build => (decodeBuild bs).map fun b => { t with build := b }
  | .filter => (decodeFilter bs).map fun f => { t with filter := t.filter.set (Fin.ofNat 16 n) f }
  | .segMap => (decodeSegMap bs).map fun g => { t with segMap := t.segMap.set (sideOf n 1) g }
  | .modules =>
    let l := sideOf n 4
    let k : Slot := Fin.ofNat 4 n
    (decodeModule (t.modules.get l) k bs).map fun e =>
      { t with modules := t.modules.set l ((t.modules.get l).set k e) }
  | .profile => (writeProfile n bs t.profile).map fun p => { t with profile := p }
  | .mode =>
    if n = 0 then (decodeThresholds bs t.mode).map fun m => { t with mode := m }
    else (decodeModeRow bs).map fun r => { t with mode := setModeRow t.mode n r }
  | .link => (decodeLink bs).map fun p => { t with link := p }

/-! ## Reading an entry -/

/-- The twelve zone bytes of a Segment Map entry (section 11.5). -/
def zoneBytes (high : Row 96 Bool) : List Byte :=
  (List.finRange 12).map fun b =>
    (List.finRange 8).foldl
      (fun (x : Byte) k => (x <<< 1) ||| (if high.get ⟨8 * b.val + k.val, by omega⟩ then 1 else 0)) 0

/-- The bytes of a Class Policy entry. -/
def encodePolicy (p : ClassPolicy) : List Byte :=
  byte1 p.minConfidence ++ byte1 p.confirmScenes ++ flag1 p.shadowTentative ++ bytes2 p.holdTime
    ++ byte1 p.marginLeft ++ byte1 p.marginRight ++ byte1 p.marginTop ++ byte1 p.gate ++ byte1 p.shadowLevel
    ++ flag1 p.hard ++ byte1 p.priority ++ byte1 p.growth

/-- The bytes of a Fixed Window entry. -/
def encodeWindow (w : FixedWindow) : List Byte :=
  byte1 (windowLampNo w.lamp) ++ sbytes2 w.left ++ sbytes2 w.right ++ sbyte1 w.upper ++ sbyte1 w.lower
    ++ byte1 (windowKindNo w.kind) ++ byte1 w.level ++ [w.modes]

/-- The bytes of a Condition Table entry. -/
def encodeCondition (e : CondEntry) : List Byte :=
  byte1 (reportNo e.report) ++ bytes2 e.persistence ++ bytes2 e.recovery ++ flag1 e.latching
    ++ byte1 (actionNo e.action)

/-- The bytes of the Vehicle Parameters entry. -/
def encodeVehicle (v : VehicleParams) : List Byte :=
  bytes2 v.speedLimit ++ bytes2 v.steerLimit ++ bytes2 v.pitchLimit ++ bytes2 v.requestLimit ++ bytes2 v.roadLimit
    ++ bytes2 v.weatherLimit ++ byte1 (sourceNo v.speedSource) ++ bytes2 v.pulsesPerKm ++ bytes2 v.speedTimeout
    ++ byte1 (sourceNo v.steerSource) ++ byte1 v.countsPerDegree ++ bytes2 v.disagreeLimit

/-- The bytes of the Link Parameters entry. -/
def encodeLink (p : LinkParams) : List Byte :=
  bytes2 p.pollPeriod ++ byte1 p.replyTimeout ++ byte1 p.missLimit ++ flag1 p.insistent ++ byte1 (parkNo p.parkMode)
    ++ byte1 (memberNo p.defaultMember) ++ byte1 p.applyTimeout ++ bytes2 p.sceneTimeout ++ byte1 p.buildPeriod

/-- The bytes of a Segment Map entry. -/
def encodeSegMap (g : SegMapEntry) : List Byte :=
  sbytes2 g.origin ++ byte1 g.columnPitch ++ sbyte1 g.rowCentre ++ byte1 g.rowPitch ++ zoneBytes g.high

/-- The bytes of a Module Table entry. -/
def encodeModule (e : ModuleEntry) : List Byte :=
  flag1 e.present ++ byte1 e.firstRow ++ byte1 e.rowCount ++ byte1 e.firstColumn ++ byte1 e.columnCount

/-- The bytes of a Profile Table entry, without pads. -/
def encodeProfile (t : Row 8 Profile) (n : Nat) : List Byte :=
  let p := t.get (Fin.ofNat 8 (n / 9))
  if n % 9 = 8 then byte1 (edgeNo p.edge)
  else ((p.levels.get (sideOf (n % 9) 4)).get (Fin.ofNat 4 (n % 9))).cells.flatMap byte1

/-- The bytes of a Mode Table entry, without pads. -/
def encodeMode (t : ModeTable) (n : Nat) : List Byte :=
  if n = 0 then
    bytes2 t.townSpeed ++ bytes2 t.motorwaySpeed ++ byte1 t.hysteresis ++ byte1 t.adverseThreshold
      ++ byte1 t.townThreshold
  else byte1 (getModeRow t n).profile.val ++ flag1 (getModeRow t n).shadowsApply

/-- The bytes of a Curve Table entry, without pads. -/
def encodeCurve (t : CurveTable) (n : Nat) : List Byte :=
  if n = 0 then bytes2 t.b1 ++ bytes2 t.b2 ++ bytes2 t.b3 ++ bytes2 t.b4
  else
    let b := t.bands.get (Fin.ofNat 8 (n - 1))
    bytes2 b.bound ++ b.values.cells.flatMap sbytes2

/-- The bytes of a Margin Table entry; the upper-bound field of entry 4 is a pad (R180). -/
def encodeMargin (t : MarginTable) (n : Nat) : List Byte :=
  if n = 4 then [0, 0] ++ byte1 t.absentExtra
  else bytes2 (t.bands.get (Fin.ofNat 4 n)).bound ++ byte1 (t.bands.get (Fin.ofNat 4 n)).extra

/-- The bytes of an entry's fields in order (section 11.5). -/
def entryFields (id : TableId) (n : Nat) (t : Tables) : List Byte :=
  match id with
  | .curve => encodeCurve t.curve n
  | .classPolicy => encodePolicy (t.classPolicy.get (Fin.ofNat 6 n))
  | .margin => encodeMargin t.margin n
  | .window => encodeWindow (t.window.get (Fin.ofNat 4 n))
  | .derate => byte1 (t.derate.get (Fin.ofNat 8 n))
  | .condition => encodeCondition (t.condition.get (Fin.ofNat 16 n))
  | .vehicle => encodeVehicle t.vehicle
  | .build => byte1 t.build.swivelStep ++ byte1 t.build.upStep ++ byte1 t.build.downStep ++ byte1 t.build.dimLevel
      ++ byte1 t.build.overtempBand
  | .filter =>
    let f := t.filter.get (Fin.ofNat 16 n)
    flag1 f.enabled ++ bytes2 f.code.toNat ++ bytes2 f.mask.toNat ++ byte1 (filterActionNo f.action)
  | .segMap => encodeSegMap (t.segMap.get (sideOf n 1))
  | .modules => encodeModule ((t.modules.get (sideOf n 4)).get (Fin.ofNat 4 n))
  | .profile => encodeProfile t.profile n
  | .mode => encodeMode t.mode n
  | .link => encodeLink t.link

/-- A whole entry as READ_TABLE returns it: pad bytes are 0 (R180). -/
def entryBytes (id : TableId) (n : Nat) (t : Tables) : List Byte :=
  let bs := entryFields id n t
  bs ++ List.replicate (entrySize id - bs.length) 0

/-! ## Checks of whole tables (R174) -/

/-- Whether an entry held in a table passes its entry check. -/
def entryPasses (id : TableId) (t : Tables) (n : Nat) : Bool :=
  (writeEntry id n (entryBytes id n t) t).isSome

/-- Whether an entry passes the table check: the bounds of bands rise strictly. -/
def boundRises (id : TableId) (t : Tables) (n : Nat) : Bool :=
  match id with
  | .curve =>
    decide (n < 2) ||
      decide ((t.curve.bands.get (Fin.ofNat 8 (n - 2))).bound < (t.curve.bands.get (Fin.ofNat 8 (n - 1))).bound)
  | .margin =>
    decide (n < 1) || decide (3 < n) ||
      decide ((t.margin.bands.get (Fin.ofNat 4 (n - 1))).bound < (t.margin.bands.get (Fin.ofNat 4 n)).bound)
  | .classPolicy | .window | .derate | .condition | .vehicle | .build | .filter | .segMap | .modules | .profile
  | .mode | .link => true

/-- The first entry of a table that fails a check, if any. -/
def firstFailure (id : TableId) (t : Tables) : Option Nat :=
  (List.range (entryCount id)).find? fun n => !(entryPasses id t n && boundRises id t n)

/-- The first table, in order of id, with an entry that fails, and that entry. -/
def firstFailing (ids : List TableId) (t : Tables) : Option (TableId × Nat) :=
  ids.findSome? fun id => (firstFailure id t).map fun n => (id, n)

/-- The number of segments of a lamp that lie in no present slot's window (R176). -/
def undriven (rows : Row 4 ModuleEntry) : Nat :=
  (List.finRange 96).countP fun i =>
    !([(0 : Slot), 1, 2, 3].any fun k => (rows.get k).present && windowHolds (rows.get k) i)

/-! ## Loads and copies (R171) -/

/-- Entries written one after another from an index on; the first that fails is named. -/
def writeEntries (id : TableId) : Nat → List (List Byte) → Tables → Except Nat Tables
  | _, [], t => .ok t
  | n, bs :: rest, t =>
    match writeEntry id n bs t with
    | none => .error n
    | some t' => writeEntries id (n + 1) rest t'

/-- A run of bytes cut into pieces of one size. -/
def pieces (size : Nat) : Nat → List Byte → List (List Byte)
  | 0, _ => []
  | n + 1, bs => bs.take size :: pieces size n (bs.drop size)

/-- The staging area holding a whole copy of one live table (R170); a structural table is never staged. -/
def stageTable (id : TableId) (t : Tables) (st : Staging) : Staging :=
  match id with
  | .curve => { st with curve := some t.curve }
  | .classPolicy => { st with classPolicy := some t.classPolicy }
  | .margin => { st with margin := some t.margin }
  | .window => { st with window := some t.window }
  | .derate => { st with derate := some t.derate }
  | .condition => { st with condition := some t.condition }
  | .vehicle => { st with vehicle := some t.vehicle }
  | .build => { st with build := some t.build }
  | .filter | .segMap | .modules | .profile | .mode | .link => st

end Sys2Proof.Machine
end

