-- ==== Sys2Proof/Machine/Replies.lean ====
section
/-! DEFINITION. The data of the replies to the reading commands (R20, R59, R79, R121, R134, R148, R162, R166 to R168,
R172), item by item in the order of their rules, in the encodings of sections 11.3 and R180. -/

namespace Sys2Proof.Machine

/-! ## Absent values (R180) -/

/-- An unsigned value of one byte, or absent. -/
def opt1 (x : Option Nat) : List Byte := byte1 (x.getD 255)

/-- An unsigned value of two bytes, or absent. -/
def opt2 (x : Option Nat) : List Byte := bytes2 (x.getD 65535)

/-- A signed value of one byte, or absent. -/
def sopt1 (x : Option Int) : List Byte := sbyte1 (x.getD (-128))

/-- A signed value of two bytes, or absent. -/
def sopt2 (x : Option Int) : List Byte := sbytes2 (x.getD (-32768))

/-- An optional number that fills one byte, sent in two (R180). -/
def optByte2 (x : Option Byte) : List Byte := opt2 (x.map BitVec.toNat)

/-- A list: its length, then its members (section 11.3). -/
def listBytes (xs : List Byte) : List Byte := byte1 xs.length ++ xs

/-! ## READ_INFO (R166) -/

/-- The data of READ_INFO. -/
def infoData (mu : Mu) : List Byte :=
  bytes2 vendorCode ++ byte1 partCode ++ byte1 revisionCode ++ byte1 mu.strap.val ++ flag1 mu.tablesDefault
    ++ [Config.resetCauseCode mu.cause, Config.configStateCode mu.config]

/-! ## READ_STATE (R167) -/

/-- A record field: value, source, age, freshness (R20). -/
def fieldItems (value : List Byte) (source : FieldSource) (age : Nat) (fresh : Bool) : List Byte :=
  value ++ byte1 (fieldSourceNo source) ++ bytes2 age ++ [Config.freshnessCode fresh]

/-- A frame input: value, age, freshness (R20). -/
def inputItems (value : List Byte) (age : Nat) (fresh : Bool) : List Byte :=
  value ++ bytes2 age ++ [Config.freshnessCode fresh]

/-- Part VEHICLE_MOTION (R20). -/
def motionData (now : Nat) (v : Vsb) : List Byte :=
  fieldItems (opt2 v.speed.value) v.speed.source (fieldAge now v.speed v.speedIn) v.speed.fresh
    ++ fieldItems (sopt2 v.steer.value) v.steer.source (fieldAge now v.steer v.steerIn) v.steer.fresh
    ++ inputItems (opt2 v.speedIn.value) (ageOf now v.speedIn) v.speedIn.fresh
    ++ inputItems (sopt2 v.steerIn.value) (ageOf now v.steerIn) v.steerIn.fresh
    ++ bytes2 v.pinSpeed ++ sopt2 (if v.pin.referenced then some v.pin.angle else none)
    ++ [Config.referencingCode v.pin.referenced] ++ sbytes2 v.pin.counter

/-- Part VEHICLE_OTHER (R20). -/
def otherData (now : Nat) (v : Vsb) : List Byte :=
  fieldItems (sopt1 v.pitch.value) .frame (ageOf now v.pitch) v.pitch.fresh
    ++ fieldItems (opt1 (v.request.value.map requestNo)) .frame (ageOf now v.request) v.request.fresh
    ++ fieldItems (opt1 (v.road.value.map roadNo)) .frame (ageOf now v.road) v.road.fresh
    ++ fieldItems (opt1 v.weather.value) .frame (ageOf now v.weather) v.weather.fresh

/-- Part BUILD (R79, R167). -/
def buildData (mu : Mu) (pb : Pb) : List Byte :=
  [Config.configStateCode mu.config] ++ flag1 mu.holdLow ++ flag1 mu.isolation ++ byte1 (modeNo pb.mode).val
    ++ sbytes2 pb.swivel ++ sbyte1 pb.rowShift ++ flag1 pb.build.isSome ++ flag1 pb.rebuild ++ [pb.generation]

/-- A generation number with its mode, or absent (R180). -/
def numberMode (x : Option (Byte × Mode)) : List Byte :=
  match x with
  | none => [255, 255]
  | some (n, m) => [n] ++ byte1 (modeNo m).val

/-- The Delivering slot (R134); what follows an empty slot is open (assumption 12), within the 29 bytes of data a reply
holds. The time left on an apply timer that is stopped, in phase APPLYING, is sent as an absent value (assumption 12).
-/
def deliveringItems (now : Nat) (du : Du) : List Byte :=
  match du.delivering with
  | none => [255, 255] ++ Config.emptyDeliveringRest.take 23
  | some (g, phase) =>
    numberMode (some (g.number, g.mode)) ++ sbytes2 g.swivel ++ sbyte1 g.rowShift ++ optByte2 g.scene
      ++ [Config.phaseCode phase] ++ listBytes (du.ackSet.map fun m => Config.ackMemberCode m.1 m.2)
      ++ opt1 (timeLeft now du.applyTimer)

/-- Part DELIVERY (R134). -/
def deliveryData (now : Nat) (du : Du) : List Byte :=
  numberMode du.applied ++ deliveringItems now du ++ numberMode (du.waiting.map fun g => (g.number, g.mode))

/-- Part PORT (R162). -/
def portData (now : Nat) (strap : Fin 4) (u : Up) : List Byte :=
  [Config.portStateCode u.port] ++ byte1 u.score ++ opt1 (timeLeft now u.recovery) ++ byte1 u.objectQ.length
    ++ byte1 u.vehicleQ.length ++ byte1 u.mgmtQ.length ++ byte1 u.replyQ.length ++ byte1 u.passUpQ.length
    ++ flag1 u.notice.isSome ++ flag1 u.held.isSome ++ byte1 strap.val ++ bytes2 (requestCode strap).toNat
    ++ bytes2 (replyCode strap).toNat

/-- The data of READ_STATE for a part argument; none where the part has no meaning (R167). -/
def stateData (part : Nat) (s : State) : Option (List Byte) :=
  match part with
  | 0 => some (motionData s.now s.vsb)
  | 1 => some (otherData s.now s.vsb)
  | 2 => some (buildData s.mu s.pb)
  | 3 => some (deliveryData s.now s.du)
  | 4 => some (portData s.now s.mu.strap s.up)
  | _ => none

/-! ## READ_TRACKS (R59) -/

/-- The entry named: FREE, or the track record (R36, R59). -/
def trackItems (now : Nat) (n : TrackNo) (x : Option Track) : List Byte :=
  match x with
  | none => byte1 n.val ++ [255]
  | some t =>
    byte1 n.val ++ byte1 (trackStateNo t.state) ++ byte1 (classNo t.cls).val ++ [t.id] ++ sbytes2 t.left
      ++ sbytes2 t.right ++ sbyte1 t.upper ++ sopt1 t.lower ++ opt2 t.distance ++ byte1 t.hits
      ++ opt2 (timeLeft now t.hold) ++ [t.lastScene]

/-- The number of non-FREE entries. -/
def trackCount (tracks : Row 24 (Option Track)) : Nat :=
  tracks.cells.countP Option.isSome

/-- The data of READ_TRACKS. -/
def tracksData (now : Nat) (tu : Tu) (n : TrackNo) : List Byte :=
  byte1 (trackCount tu.tracks) ++ byte1 (streetlightCount tu.tracks) ++ trackItems now n (tu.tracks.get n)

/-! ## READ_MODULES (R121) -/

/-- The transmitter state without its frame. -/
def txState : LinkTx → Config.TxState
  | .idle => .idle
  | .waking => .waking
  | .sending _ _ => .sending

/-- The data of READ_MODULES. The last granted member is sent by the codes of the default member (assumption 11). -/
def modulesData (e : ModuleEntry) (c : Slc) (k : Slot) (isolation : Bool) : List Byte :=
  let m := c.modules.get k
  encodeModule e ++ [Config.moduleStateCode m.state] ++ byte1 m.misses ++ byte1 m.band
    ++ listBytes (m.failed.map (BitVec.ofNat 8)) ++ flag1 m.selfFallback
    ++ [Config.outstandingCode (m.outstanding.map Prod.fst), Config.pollEntryCode (c.poll.get k)]
    ++ byte1 c.patternQ.length ++ byte1 c.passQ.length ++ [Config.txStateCode (txState c.tx)]
    ++ byte1 (memberNo c.lastGranted) ++ byte1 c.lastServed.val ++ flag1 isolation

/-! ## READ_CONDITIONS (R148) -/

/-- The raw byte of a condition: bits 0, 1 and 2 are the raw value and the LEFT and RIGHT raw values (section 11.3). -/
def rawByte (c : Cond) (r : CondRec) : List Byte :=
  let perLink := condPerLink c
  byte1 ((if decide (condKind c = .level) && condRaw c r then 1 else 0)
    + (if perLink && r.rawLeft then 2 else 0) + (if perLink && r.rawRight then 4 else 0))

/-- The timer of a condition that runs, if one does. -/
def condTimer (r : CondRec) : Timer :=
  r.persist.or r.recover

/-- One condition's items (R148). -/
def conditionItems (now : Nat) (cm : Cm) (c : Cond) : List Byte :=
  let r := cm.recs.get (condNo c)
  byte1 (condStateNo r.state) ++ rawByte c r ++ byte1 (if condKind c = .event then r.count else 0)
    ++ opt2 (timeLeft now (condTimer r)) ++ flag1 (cm.latched.get (condNo c)) ++ bytes2 r.faults

/-- The data of READ_CONDITIONS. -/
def conditionsData (now : Nat) (cm : Cm) (first count : Nat) : List Byte :=
  ((allConds.drop first).take count).flatMap (conditionItems now cm) ++ byte1 (actionNo cm.action)
    ++ flag1 cm.outstanding ++ opt1 (cm.appliedMode.map fun m => (modeNo m).val) ++ flag1 cm.fbk

/-! ## READ_STATISTICS (R168) -/

/-- The groups of counters (R168). -/
inductive StatGroup where
  | vehicle | scene | track | build | linkLeft | linkRight | delivery | condition | port | management
deriving DecidableEq, Repr

/-- The group of a code, 0..9 in the order of R168's table. -/
def groupOf : Nat → Option StatGroup
  | 0 => some .vehicle
  | 1 => some .scene
  | 2 => some .track
  | 3 => some .build
  | 4 => some .linkLeft
  | 5 => some .linkRight
  | 6 => some .delivery
  | 7 => some .condition
  | 8 => some .port
  | 9 => some .management
  | _ => none

/-- The counters of a group, in order. -/
def groupCells (g : StatGroup) (s : State) : List Nat :=
  match g with
  | .vehicle => s.vsb.stats.cells
  | .scene => s.sa.stats.cells
  | .track => s.tu.stats.cells
  | .build => s.pb.stats.cells
  | .linkLeft => s.links.left.stats.cells
  | .linkRight => s.links.right.stats.cells
  | .delivery => s.du.stats.cells
  | .condition => s.cm.stats.cells
  | .port => s.up.stats.cells
  | .management => s.mu.stats.cells

/-- A run of counters set to 0. -/
def clearCells {k : Nat} (first count : Nat) (stats : Row k Nat) : Row k Nat :=
  stats.mapIdx fun i n => if decide (first ≤ i.val) && decide (i.val < first + count) then 0 else n

/-- A run of a group's counters set to 0 (R168). -/
def clearGroup (g : StatGroup) (first count : Nat) (s : State) : State :=
  match g with
  | .vehicle => { s with vsb := { s.vsb with stats := clearCells first count s.vsb.stats } }
  | .scene => { s with sa := { s.sa with stats := clearCells first count s.sa.stats } }
  | .track => { s with tu := { s.tu with stats := clearCells first count s.tu.stats } }
  | .build => { s with pb := { s.pb with stats := clearCells first count s.pb.stats } }
  | .linkLeft => updLink .left (fun c => { c with stats := clearCells first count c.stats }) s
  | .linkRight => updLink .right (fun c => { c with stats := clearCells first count c.stats }) s
  | .delivery => { s with du := { s.du with stats := clearCells first count s.du.stats } }
  | .condition => { s with cm := { s.cm with stats := clearCells first count s.cm.stats } }
  | .port => { s with up := { s.up with stats := clearCells first count s.up.stats } }
  | .management => { s with mu := { s.mu with stats := clearCells first count s.mu.stats } }

/-- The data of READ_STATISTICS. -/
def statisticsData (g : StatGroup) (first count : Nat) (s : State) : List Byte :=
  (((groupCells g s).drop first).take count).flatMap bytes2

/-! ## READ_TABLE (R172) -/

/-- The data of READ_TABLE. -/
def tableData (id : TableId) (first count : Nat) (t : Tables) : List Byte :=
  (List.range count).flatMap fun i => entryBytes id (first + i) t

end Sys2Proof.Machine
end

