-- ==== Sys2Proof/Machine/Requests.lean ====
section
/-! DEFINITION. Management requests as MU decodes them (R164, section 11.3). -/

namespace Sys2Proof.Machine

/-- The commands of section 10.2; RECOVER is two, by what it names. -/
inductive Command where
  | readInfo | readState | readTracks | readModules | readConditions | readStatistics | readTable | loadTable
  | commitTables | discardStaged | enterConfig | exitConfig | holdLow | releaseHold | setIsolation | setSteerZero
  | clearTracks | clearNotice | recoverCondition | recoverModule | restart
deriving DecidableEq, Repr

/-- What MU makes of a request: one it cannot carry out for its form, with the status it answers, or a command with its
argument bytes. -/
inductive Request where
  | bad (status : Status)
  | command (c : Command) (args : List Byte)
deriving DecidableEq, Repr

/-- A command whose payload length is the only condition on its form. -/
def ofLength (c : Command) (ok : Bool) (args : List Byte) : Request :=
  if ok then .command c args else .bad .badArgument

/-- RECOVER: 0 and a condition number, or 1, link and address (section 11.3); anything else is BAD_ARGUMENT. -/
def recoverRequest (args : List Byte) : Request :=
  match args with
  | [0, n] => .command .recoverCondition [n]
  | [1, l, k] => .command .recoverModule [l, k]
  | _ => .bad .badArgument

/-- The request of a command code and its arguments (section 11.3). -/
def requestOfCode (code : Nat) (args : List Byte) : Request :=
  let n := args.length
  match code with
  | 1 => ofLength .readInfo (n == 0) args
  | 2 => ofLength .readState (n == 1) args
  | 3 => ofLength .readTracks (n == 1) args
  | 4 => ofLength .readModules (n == 2) args
  | 5 => ofLength .readConditions (n == 2) args
  | 6 => ofLength .readStatistics (n == 4) args
  | 7 => ofLength .readTable (n == 4) args
  | 8 => ofLength .loadTable (decide (2 ≤ n)) args
  | 9 => ofLength .commitTables (n == 0) args
  | 10 => ofLength .discardStaged (n == 0) args
  | 11 => ofLength .enterConfig (n == 0) args
  | 12 => ofLength .exitConfig (n == 0) args
  | 13 => ofLength .holdLow (n == 0) args
  | 14 => ofLength .releaseHold (n == 0) args
  | 15 => ofLength .setIsolation (n == 1) args
  | 16 => ofLength .setSteerZero (n == 0) args
  | 17 => ofLength .clearTracks (n == 0) args
  | 18 => ofLength .clearNotice (decide (n ≤ 16)) args
  | 19 => recoverRequest args
  | 20 => ofLength .restart (n == 0) args
  | _ => .bad .unknownCommand

/-- A request's tag: 0 where the payload is too short to hold one (R164). -/
def requestTag (f : UpFrame) : Byte :=
  if f.payload.length < 2 then 0 else f.payload.getD 1 0

/-- What MU makes of a frame of the Management queue, by the first case that applies (R164). -/
def parseRequest (f : UpFrame) : Request :=
  if f.payload.length < 2 then .bad .badArgument
  else if !f.last then .bad .badArgument
  else requestOfCode (u8 f.payload 0) (f.payload.drop 2)

/-- The payload of a reply (section 11.3). -/
def replyPayload (tag : Byte) (seq : BitVec 4) (status : Status) (data : List Byte) : List Byte :=
  [1, tag, BitVec.ofNat 8 (seq.toNat * 16 + statusNo status)] ++ data

end Sys2Proof.Machine
end

