-- ==== Sys2Proof/Machine/Tracks.lean ====
section
/-! DEFINITION. The commands of the Track Unit (chapter 3): association in three passes, the settling, hold timers, the
loss of perception and the clearing of the table. -/

namespace Sys2Proof.Machine

/-- An association under way: the table, which entries were matched or created in this scene, the statistics, and
whether a report was dropped. -/
structure Assoc where
  tracks : Row 24 (Option Track)
  matched : Row 24 Bool
  stats : Row 14 Nat
  dropped : Bool
deriving DecidableEq, Repr

/-- What an association works by: the tables in force as the scene is taken (R39) and the clock. -/
structure AssocRules where
  policy : Row 6 ClassPolicy
  segMap : Both SegMapEntry
  scene : Byte
  now : Nat
deriving DecidableEq, Repr

/-- A class's row of the Class Policy table. -/
def policyOf (policy : Row 6 ClassPolicy) (c : ObjClass) : ClassPolicy :=
  policy.get (classNo c)

/-- A counter of an association one up. -/
def countAssoc (i : Fin 14) (a : Assoc) : Assoc :=
  { a with stats := bumpAt i a.stats }

/-- An entry becomes FREE. -/
def freeEntry (n : TrackNo) (a : Assoc) : Assoc :=
  { a with tracks := a.tracks.set n none, matched := a.matched.set n false }

/-- Step 1: reports below their class's minimum confidence are discarded (R40). -/
def discardWeak (r : AssocRules) (reports : List Report) (a : Assoc) : List Report × Assoc :=
  let weak (x : Report) : Bool := decide (x.confidence < (policyOf r.policy x.cls).minConfidence)
  (reports.filter fun x => !weak x,
   (reports.filter weak).foldl (fun a _ => countAssoc Stat.trkLowConfidence a) a)

/-- What a match does to the track (R42). -/
def matchedTrack (scene : Byte) (x : Report) (t : Track) : Track :=
  { t with
    left := x.left, right := x.right, upper := x.upper, lower := x.lower, distance := x.distance, id := x.id
    hits := min 15 (t.hits + 1), lastScene := scene
    state := if t.state = .coasting then .confirmed else t.state
    hold := none }

/-- A track is matched, and freed again if the report lies wholly outside the lamp field (R42, R43). -/
def matchEntry (r : AssocRules) (n : TrackNo) (t : Track) (x : Report) (a : Assoc) : Assoc :=
  if whollyOutside r.segMap x.left x.right then countAssoc Stat.trkExits (freeEntry n a)
  else { a with
    tracks := a.tracks.set n (some (matchedTrack r.scene x t)), matched := a.matched.set n true }

/-- The entry of the same report id and class (R41). -/
def findById (tracks : Row 24 (Option Track)) (x : Report) : Option TrackNo :=
  allTracks.find? fun n =>
    match tracks.get n with
    | some t => decide (t.id = x.id) && decide (t.cls = x.cls)
    | none => false

/-- Pass 1 for one report (R41): the report is matched, or left for pass 2. -/
def passOne (r : AssocRules) (acc : List Report × Assoc) (x : Report) : List Report × Assoc :=
  match findById acc.2.tracks x with
  | none => (acc.1 ++ [x], acc.2)
  | some n =>
    match acc.2.tracks.get n with
    | none => (acc.1 ++ [x], acc.2)
    | some t => (acc.1, countAssoc Stat.trkIdMatches (matchEntry r n t x acc.2))

/-- The overlap width of a report's gated box and a track (R44). -/
def overlapWidth (gate : Nat) (x : Report) (t : Track) : Int :=
  min (x.right + gate) t.right - max (x.left - gate) t.left

/-- A candidate's overlap width in pass 2, where it is a candidate that qualifies (R44). -/
def qualifies (r : AssocRules) (x : Report) (a : Assoc) (n : TrackNo) : Option (TrackNo × Track × Int) :=
  match a.tracks.get n with
  | none => none
  | some t =>
    let w := overlapWidth (policyOf r.policy x.cls).gate x t
    if decide (t.cls = x.cls) && !a.matched.get n && decide (0 < w) then some (n, t, w) else none

/-- The qualifying candidate of largest overlap width, the lowest number among equals (R44). -/
def bestOverlap (r : AssocRules) (x : Report) (a : Assoc) : Option (TrackNo × Track × Int) :=
  (allTracks.filterMap (qualifies r x a)).foldl
    (fun best c =>
      match best with
      | none => some c
      | some b => if b.2.2 < c.2.2 then some c else some b)
    none

/-- Pass 2 for one report (R44). -/
def passTwo (r : AssocRules) (acc : List Report × Assoc) (x : Report) : List Report × Assoc :=
  match bestOverlap r x acc.2 with
  | none => (acc.1 ++ [x], acc.2)
  | some (n, t, _) => (acc.1, countAssoc Stat.trkOverlapMatches (matchEntry r n t x acc.2))

/-- A new track made from a report (R45). -/
def newTrack (scene : Byte) (x : Report) : Track :=
  { state := .tentative, cls := x.cls, id := x.id, left := x.left, right := x.right, upper := x.upper
    lower := x.lower, distance := x.distance, hits := 1, hold := none, lastScene := scene }

/-- A new track in an entry; it counts as matched. -/
def placeTrack (scene : Byte) (n : TrackNo) (x : Report) (a : Assoc) : Assoc :=
  { a with tracks := a.tracks.set n (some (newTrack scene x)), matched := a.matched.set n true }

/-- The lowest-numbered FREE entry. -/
def lowestFree (tracks : Row 24 (Option Track)) : Option TrackNo :=
  allTracks.find? fun n => (tracks.get n).isNone

/-- A victim's glare priority, where the entry holds one for this priority (R46). -/
def victimPriority (policy : Row 6 ClassPolicy) (priority : Nat) (t : Option Track) : Option Nat :=
  match t with
  | none => none
  | some t =>
    let p := (policyOf policy t.cls).priority
    if decide (t.state = .tentative) && decide (p < priority) then some p else none

/-- The victim of lowest glare priority, the lowest number among equals (R46). -/
def findVictim (policy : Row 6 ClassPolicy) (priority : Nat) (tracks : Row 24 (Option Track)) :
    Option (TrackNo × Nat) :=
  (allTracks.filterMap fun n => (victimPriority policy priority (tracks.get n)).map fun p => (n, p)).foldl
    (fun best c =>
      match best with
      | none => some c
      | some b => if c.2 < b.2 then some c else some b)
    none

/-- Pass 3 for one report (R45 to R47). -/
def passThree (r : AssocRules) (a : Assoc) (x : Report) : Assoc :=
  if whollyOutside r.segMap x.left x.right then countAssoc Stat.trkOutsideIgnored a
  else
    match lowestFree a.tracks, findVictim r.policy (policyOf r.policy x.cls).priority a.tracks with
    | some n, _ => countAssoc Stat.trkCreated (placeTrack r.scene n x a)
    | none, some (n, _) => countAssoc Stat.trkReplaced (placeTrack r.scene n x a)
    | none, none => countAssoc Stat.trkDroppedFull { a with dropped := true }

/-- A CONFIRMED track that is lost from view (R50): COASTING with its hold timer, or none where its class has hold time
0. -/
def coastTrack (r : AssocRules) (t : Track) : Option Track :=
  let hold := (policyOf r.policy t.cls).holdTime
  if hold = 0 then none else some { t with state := .coasting, hits := 0, hold := startTimer r.now hold }

/-- A COASTING track's box grown (R51). -/
def growTrack (policy : Row 6 ClassPolicy) (t : Track) : Track :=
  let g := (policyOf policy t.cls).growth
  { t with left := max (-400) (t.left - g), right := min 400 (t.right + g) }

/-- A matched track settled (R49). -/
def settleMatched (r : AssocRules) (n : TrackNo) (t : Track) (a : Assoc) : Assoc :=
  if decide (t.state = .tentative) && decide ((policyOf r.policy t.cls).confirmScenes ≤ t.hits) then
    countAssoc Stat.trkConfirms { a with tracks := a.tracks.set n (some { t with state := .confirmed }) }
  else a

/-- An unmatched track settled (R48, R50 to R52). -/
def settleUnmatched (r : AssocRules) (truncated : Bool) (n : TrackNo) (t : Track) (a : Assoc) : Assoc :=
  match t.state with
  | .coasting => { a with tracks := a.tracks.set n (some (growTrack r.policy t)) }
  | .tentative => if truncated then a else countAssoc Stat.trkTentativeLost (freeEntry n a)
  | .confirmed =>
    if truncated then a
    else
      match coastTrack r t with
      | some t' => { a with tracks := a.tracks.set n (some t') }
      | none => countAssoc Stat.trkHoldExpiries (freeEntry n a)

/-- One entry settled at the end of a scene (R48). -/
def settleEntry (r : AssocRules) (truncated : Bool) (a : Assoc) (n : TrackNo) : Assoc :=
  match a.tracks.get n with
  | none => a
  | some t => if a.matched.get n then settleMatched r n t a else settleUnmatched r truncated n t a

/-- The association of one scene (R39, steps 1 to 5). -/
def associate (r : AssocRules) (scene : Scene) (tu : Tu) : Assoc :=
  let start : Assoc :=
    { tracks := tu.tracks, matched := Row.fill 24 false, stats := tu.stats, dropped := false }
  let trusted := discardWeak r scene.reports start
  let one := trusted.1.foldl (passOne r) ([], trusted.2)
  let two := one.1.foldl (passTwo r) ([], one.2)
  let three := two.1.foldl (passThree r) two.2
  allTracks.foldl (settleEntry r scene.truncated) three

/-- The tables and the clock an association works by. -/
def assocRules (s : State) (scene : Byte) : AssocRules :=
  { policy := s.mu.tables.classPolicy, segMap := s.mu.tables.segMap, scene := scene, now := s.now }

/-- TU takes a scene (R39): association, TRACK_TABLE_FULL if a report was dropped, the scene number into PB's scene
latch, and the build trigger (R53, R65). -/
def takeScene (scene : Scene) (s : State) : State :=
  let a := associate (assocRules s scene.number) scene s.tu
  let s := { s with
    tu := { tracks := a.tracks, stats := bumpAt Stat.trkScenes a.stats }
    sa := { s.sa with handover := false }
    pb := { s.pb with latch := some scene.number } }
  trigger (if a.dropped then sendEvent .trackTableFull s else s)

/-- The first scene SA has handed over, if no scene-timeout aging was sent before it, and the messages left. -/
def nextScene : List ToTu → Option (Scene × List ToTu)
  | .scene x :: rest => some (x, rest)
  | .aging :: _ => none
  | [] => none

/-- SCENE_TAKE (R39). -/
def execSceneTake (s : State) : Host.Outcome State Fault Refusal :=
  running s fun s =>
    match nextScene s.mail.toTu with
    | none => s
    | some (x, rest) => takeScene x { s with mail := { s.mail with toTu := rest } }

/-- A track's hold timer. -/
def holdTimer (tu : Tu) (n : TrackNo) : Timer :=
  (tu.tracks.get n).bind Track.hold

/-- The hold timer of a track expires (R54). -/
def expireHold (n : TrackNo) (s : State) : State :=
  trigger { s with tu := { tracks := s.tu.tracks.set n none, stats := bumpAt Stat.trkHoldExpiries s.tu.stats } }

/-- HOLD_TIMER_EXPIRY (R54). -/
def execHoldTimerExpiry (n : TrackNo) (s : State) : Host.Outcome State Fault Refusal :=
  whenever (due s.now (holdTimer s.tu n)) s (expireHold n)

/-- One entry after the scene-timeout changes (R56). A CONFIRMED track freed here because its class has hold time 0
counts in TRK_HOLD_EXPIRIES (assumption 33). -/
def ageEntry (r : AssocRules) (a : Assoc) (n : TrackNo) : Assoc :=
  match a.tracks.get n with
  | none => a
  | some t =>
    match t.state with
    | .coasting => a
    | .tentative => countAssoc Stat.trkTentativeLost (freeEntry n a)
    | .confirmed =>
      match coastTrack r t with
      | some t' => { a with tracks := a.tracks.set n (some t') }
      | none => countAssoc Stat.trkHoldExpiries (freeEntry n a)

/-- TU applies the scene-timeout changes (R56). -/
def ageTracks (s : State) : State :=
  let start : Assoc :=
    { tracks := s.tu.tracks, matched := Row.fill 24 false, stats := s.tu.stats, dropped := false }
  let a := allTracks.foldl (ageEntry (assocRules s 0)) start
  { s with
    tu := { tracks := a.tracks, stats := bumpAt Stat.trkStaleAgings a.stats }
    mail := { s.mail with toTu := s.mail.toTu.erase .aging } }

/-- SCENE_TIMEOUT_AGING (R56). -/
def execSceneTimeoutAging (s : State) : Host.Outcome State Fault Refusal :=
  whenever (s.mail.toTu.contains .aging) s ageTracks

/-- CLASS_POLICY_IN_FORCE (R38): TU reads the table in force at each use, so it changes nothing that TU holds. -/
def execClassPolicyInForce (s : State) : Host.Outcome State Fault Refusal :=
  whenever (decide (0 < s.mail.classPolicy)) s fun s =>
    { s with mail := { s.mail with classPolicy := s.mail.classPolicy - 1 } }

/-- Every entry of the Track Table is freed and every hold timer cancelled (R57). -/
def clearTable (s : State) : State :=
  { s with tu := { s.tu with tracks := Row.fill 24 none } }

end Sys2Proof.Machine
end

