-- ==== Sys2Proof/Machine/Vehicle.lean ====
section
/-! DEFINITION. The commands of the Vehicle State Block (chapter 1). -/

namespace Sys2Proof.Machine

/-- A frame input after a taken frame: updated where the frame carries the field (R2). -/
def updateInput {α : Type} (now limit : Nat) (x : Option α) (i : FrameInput α) : FrameInput α :=
  match x with
  | none => i
  | some v => { value := some v, updatedAt := some now, fresh := true, timer := startTimer now limit }

/-- The frame inputs after a taken frame (R2). -/
def updateInputs (now : Nat) (p : VehicleParams) (f : VehicleFrame) (v : Vsb) : Vsb :=
  { v with
    speedIn := updateInput now p.speedLimit f.speed v.speedIn
    steerIn := updateInput now p.steerLimit f.steer v.steerIn
    pitch := updateInput now p.pitchLimit f.pitch v.pitch
    request := updateInput now p.requestLimit f.request v.request
    road := updateInput now p.roadLimit f.road v.road
    weather := updateInput now p.weatherLimit f.weather v.weather }

/-- A steering pin referenced at this count (R12, R13). -/
def referencePin (cpd : Nat) (reference : Int) (pin : SteerPin) : SteerPin :=
  { pin with
    reference := reference, referenced := true, phaseErrors := 0, angle := pinAngleOf pin.counter reference cpd }

/-- Automatic referencing, checked for a taken frame that carries a steering angle (R13). -/
def autoReference (p : VehicleParams) (angle : Option Int) (v : Vsb) : Vsb :=
  match angle with
  | none => v
  | some a =>
    if decide (p.steerSource = .frameElsePin) && !v.pin.referenced then
      { v with
        pin := referencePin p.countsPerDegree (v.pin.counter - roundDiv (a * p.countsPerDegree) 10) v.pin
        stats := bumpAt Stat.steerAutoRefs v.stats }
    else v

/-- Whether a taken frame's beam request asks PB for a build (R4), by the input as it stood before the frame. -/
def requestTriggers (x : Option BeamRequest) (before : FrameInput BeamRequest) : Bool :=
  match x with
  | none => false
  | some r => !before.fresh || decide (before.value ≠ some r)

/-- What follows an event that may concern speed and steering: record fields, disagreement, raw values (section 1.5). -/
def vehicleChanged (s : State) : State :=
  reportStale (reportDisagree (reselectSteer (reselectSpeed s)))

/-- A vehicle frame that passed its check is applied (R2, R4, R13). -/
def applyVehicleFrame (f : VehicleFrame) (s : State) : State :=
  let p := s.mu.tables.vehicle
  let before := s.vsb.request
  let v := autoReference p f.steer (updateInputs s.now p f s.vsb)
  let s := vehicleChanged { s with vsb := { v with stats := bumpAt Stat.vehFramesTaken v.stats } }
  if requestTriggers f.request before then trigger s else s

/-- A VSB statistics counter one up. -/
def countVehicle (i : Fin 7) (s : State) : State :=
  { s with vsb := { s.vsb with stats := bumpAt i s.vsb.stats } }

/-- VSB takes the oldest frame of the Vehicle queue (R2). -/
def takeVehicleFrame (s : State) : State :=
  match s.up.vehicleQ with
  | [] => s
  | f :: rest =>
    let s := { s with up := { s.up with vehicleQ := rest } }
    match parseVehicle f.payload with
    | none => countVehicle Stat.vehFramesRejected s
    | some vf => applyVehicleFrame vf s

/-- VEHICLE_FRAME_TAKE (R2). -/
def execVehicleFrameTake (s : State) : Host.Outcome State Fault Refusal :=
  running s takeVehicleFrame

/-- A frame input whose staleness timer has expired (R3). -/
def staleInput {α : Type} (i : FrameInput α) : FrameInput α :=
  { i with fresh := false, timer := none }

/-- The staleness timer of a field. -/
def fieldTimer (v : Vsb) : VField → Timer
  | .speed => v.speedIn.timer
  | .steering => v.steerIn.timer
  | .pitch => v.pitch.timer
  | .request => v.request.timer
  | .road => v.road.timer
  | .weather => v.weather.timer

/-- A field's staleness timer expires (R3, R4, R17). -/
def expireField (f : VField) (s : State) : State :=
  match f with
  | .speed => speedChanged { s with vsb := { s.vsb with speedIn := staleInput s.vsb.speedIn } }
  | .steering => steerChanged { s with vsb := { s.vsb with steerIn := staleInput s.vsb.steerIn } }
  | .pitch => { s with vsb := { s.vsb with pitch := staleInput s.vsb.pitch } }
  | .request => trigger (reportStale { s with vsb := { s.vsb with request := staleInput s.vsb.request } })
  | .road => { s with vsb := { s.vsb with road := staleInput s.vsb.road } }
  | .weather => { s with vsb := { s.vsb with weather := staleInput s.vsb.weather } }

/-- STALENESS_TIMER_EXPIRY (R3). -/
def execStalenessTimerExpiry (f : VField) (s : State) : Host.Outcome State Fault Refusal :=
  whenever (due s.now (fieldTimer s.vsb f)) s (expireField f)

/-- A rising edge of SPD `period` µs after the last taken edge, 200 µs or more (R5, R6). -/
def captureEdge (period : Nat) (s : State) : State :=
  let p := s.mu.tables.vehicle
  let speed := pinSpeedOf period p.pulsesPerKm
  let before := s.vsb.pinSpeed
  let s := { s with vsb := { s.vsb with
    lastEdge := some s.now, period := some period, pinSpeed := speed
    spdTimer := startTimer s.now p.speedTimeout } }
  if speed = before then s else speedChanged s

/-- A rising edge of SPD (R5). -/
def takeEdge (s : State) : State :=
  match s.vsb.lastEdge with
  | none =>
    { s with vsb := { s.vsb with
      lastEdge := some s.now, spdTimer := startTimer s.now s.mu.tables.vehicle.speedTimeout } }
  | some t => if s.now - t < 200 then countVehicle Stat.spdGlitches s else captureEdge (s.now - t) s

/-- SPD_EDGE (R5). -/
def execSpdEdge (s : State) : Host.Outcome State Fault Refusal :=
  running s takeEdge

/-- The speed timeout timer expires (R7). -/
def expireSpeedTimeout (s : State) : State :=
  speedChanged (countVehicle Stat.spdTimeouts { s with vsb := { s.vsb with
    pinSpeed := 0, lastEdge := none, period := none, spdTimer := none } })

/-- SPEED_TIMEOUT_EXPIRY (R7). -/
def execSpeedTimeoutExpiry (s : State) : Host.Outcome State Fault Refusal :=
  whenever (due s.now s.vsb.spdTimer) s expireSpeedTimeout

/-- Whether an edge steps the counter up, by the level of the other line (the table of R8). -/
def stepsUp (line : SteerLine) (rising otherHigh : Bool) : Bool :=
  match line, rising, otherHigh with
  | .sta, true, false => true
  | .sta, false, true => true
  | .stb, true, true => true
  | .stb, false, false => true
  | .sta, true, true => false
  | .sta, false, false => false
  | .stb, true, false => false
  | .stb, false, true => false

/-- The steering pin after a step that is not refused: its angle is computed again while it is REFERENCED (R8, R11). -/
def steppedPin (cpd : Nat) (counter : Int) (pin : SteerPin) : SteerPin :=
  { pin with
    counter := counter
    angle := if pin.referenced then pinAngleOf counter pin.reference cpd else pin.angle }

/-- The steering counter steps to this value, or is refused at the end of its range (R8, R10). -/
def stepCounter (counter : Int) (s : State) : State :=
  if within (-32768) 32767 counter then
    steerChanged { s with vsb := { s.vsb with
      pin := steppedPin s.mu.tables.vehicle.countsPerDegree counter s.vsb.pin } }
  else
    steerChanged (countVehicle Stat.steerSaturations { s with vsb := { s.vsb with
      pin := { s.vsb.pin with referenced := false } } })

/-- The level of a line as last sampled. -/
def lineLevel (line : SteerLine) (s : State) : Bool :=
  match line with
  | .sta => s.sta
  | .stb => s.stb

/-- The other line. -/
def otherLine : SteerLine → SteerLine
  | .sta => .stb
  | .stb => .sta

/-- A line has changed its level. -/
def flipLine (line : SteerLine) (s : State) : State :=
  match line with
  | .sta => { s with sta := !s.sta }
  | .stb => { s with stb := !s.stb }

/-- The counter's value after a step up or down. -/
def counterAfter (up : Bool) (counter : Int) : Int :=
  if up then counter + 1 else counter - 1

/-- STEERING_STEP (R8). The pins move whether or not RESETN holds the part. -/
def execSteeringStep (line : SteerLine) (s : State) : Host.Outcome State Fault Refusal :=
  let up := stepsUp line (!lineLevel line s) (lineLevel (otherLine line) s)
  running (flipLine line s) fun s => stepCounter (counterAfter up s.vsb.pin.counter) s

/-- A phase error is counted; at a count of 8 a REFERENCED pin becomes UNREFERENCED (R9). -/
def countPhaseError (s : State) : State :=
  let n := min 8 (s.vsb.pin.phaseErrors + 1)
  let s := countVehicle Stat.steerPhaseErrors
    { s with vsb := { s.vsb with pin := { s.vsb.pin with phaseErrors := n } } }
  if decide (n = 8) && s.vsb.pin.referenced then
    steerChanged { s with vsb := { s.vsb with pin := { s.vsb.pin with referenced := false } } }
  else s

/-- PHASE_ERROR (R9). -/
def execPhaseError (s : State) : Host.Outcome State Fault Refusal :=
  running (flipLine .sta (flipLine .stb s)) countPhaseError

/-- The pin speed and the pin angle worked out again under the Vehicle Parameters in force (R18). -/
def recomputePins (p : VehicleParams) (v : Vsb) : Vsb :=
  { v with
    pinSpeed := match v.period with
      | none => v.pinSpeed
      | some t => pinSpeedOf t p.pulsesPerKm
    pin := steppedPin p.countsPerDegree v.pin.counter v.pin }

/-- VSB takes new Vehicle Parameters (R18). -/
def takeVehicleParameters (s : State) : State :=
  vehicleChanged { s with
    vsb := recomputePins s.mu.tables.vehicle s.vsb
    mail := { s.mail with vehicleParams := s.mail.vehicleParams - 1 } }

/-- VEHICLE_PARAMETERS_IN_FORCE (R18). -/
def execVehicleParametersInForce (s : State) : Host.Outcome State Fault Refusal :=
  whenever (decide (0 < s.mail.vehicleParams)) s takeVehicleParameters

/-- SET_STEER_ZERO references the steering pin at 0° (R12). -/
def steerZero (s : State) : State :=
  steerChanged { s with vsb := { s.vsb with
    pin := referencePin s.mu.tables.vehicle.countsPerDegree s.vsb.pin.counter s.vsb.pin } }

end Sys2Proof.Machine
end

