-- ==== Sys2Proof/Machine/Management.lean ====
section
/-! DEFINITION. The commands of the Management Unit (chapter 10) and those it carries to other blocks. Each row is the
event in which MU takes the oldest frame of the Management queue, where that frame is this row's request (assumption
23). -/

namespace Sys2Proof.Machine

/-- What carrying out a request comes to: the state it leaves, the status, the data, and whether the reply is the one
after which a RESTART runs. -/
structure Carried where
  state : State
  status : Status
  data : List Byte
  restart : Bool
deriving DecidableEq, Repr

/-- Carried out, with data. -/
def doneWith (data : List Byte) (s : State) : Carried :=
  { state := s, status := .done, data := data, restart := false }

/-- Carried out, without data. -/
def done (s : State) : Carried :=
  doneWith [] s

/-- Refused with a status: nothing changes. -/
def refuse (status : Status) (s : State) : Carried :=
  { state := s, status := status, data := [], restart := false }

/-- A table entry that failed its checks is named (R164). -/
def badTable (id : TableId) (n : Nat) (s : State) : Carried :=
  { state := s, status := .badTable, data := byte1 (tableNo id) ++ byte1 n, restart := false }

/-- Whether MU can take a request now (R165). -/
def mayTake (s : State) : Bool :=
  decide (s.up.replyQ.length < replyCapacity) && !s.mu.restartPending

/-- Whether a status counts in MU_BAD_REQUESTS (R165). -/
def isBadRequest (status : Status) : Bool :=
  match status with
  | .unknownCommand | .badArgument => true
  | .done | .refusedState | .badTable | .busyCommit => false

/-- An MU statistics counter one up. -/
def countManagement (i : Fin 4) (s : State) : State :=
  { s with mu := { s.mu with stats := bumpAt i s.mu.stats } }

/-- The reply is placed at the tail of the Reply queue and the statistics counted; the upstream transmitter starts if
it can (R165, R161, assumption 14). -/
def reply (tag : Byte) (seq : BitVec 4) (r : Carried) : State :=
  let s := r.state
  let item : Reply := { payload := replyPayload tag seq r.status r.data, restart := r.restart }
  let s := countManagement Stat.muCommands { s with up := { s.up with replyQ := s.up.replyQ ++ [item] } }
  upStart (if isBadRequest r.status then countManagement Stat.muBadRequests s else s)

/-- MU takes the oldest request, if it can and if it is one this row is about; `carry` carries it out, or is none where
the request is another row's (R165). -/
def takeRequest (carry : Request → Option (State → Carried)) (s : State) : State :=
  match s.up.mgmtQ with
  | [] => s
  | f :: rest =>
    match mayTake s, carry (parseRequest f) with
    | true, some run => reply (requestTag f) f.seq (run { s with up := { s.up with mgmtQ := rest } })
    | true, none | false, _ => s

/-- A row that is about one command. -/
def forCommand (c : Command) (run : List Byte → State → Carried) (r : Request) : Option (State → Carried) :=
  match r with
  | .command c' args => if c' = c then some (run args) else none
  | .bad _ => none

/-- The event of taking a request for one command. -/
def takeCommand (c : Command) (run : List Byte → State → Carried) (s : State) :
    Host.Outcome State Fault Refusal :=
  running s (takeRequest (forCommand c run))

/-- A request that cannot be carried out for its form (R164). -/
def carryMalformed (r : Request) : Option (State → Carried) :=
  match r with
  | .bad status => some (refuse status)
  | .command _ _ => none

/-- MALFORMED_REQUEST (R164). -/
def execMalformedRequest (s : State) : Host.Outcome State Fault Refusal :=
  running s (takeRequest carryMalformed)

/-! ## Reading commands -/

/-- READ_INFO carried out (R166). -/
def carryReadInfo (_ : List Byte) (s : State) : Carried :=
  doneWith (infoData s.mu) s

/-- READ_INFO (R166). -/
def execReadInfo (s : State) : Host.Outcome State Fault Refusal :=
  takeCommand .readInfo carryReadInfo s

/-- READ_STATE carried out (R167). -/
def carryReadState (args : List Byte) (s : State) : Carried :=
  match stateData (u8 args 0) s with
  | some d => doneWith d s
  | none => refuse .badArgument s

/-- READ_STATE (R167). -/
def execReadState (s : State) : Host.Outcome State Fault Refusal :=
  takeCommand .readState carryReadState s

/-- READ_TRACKS carried out (R59). -/
def carryReadTracks (args : List Byte) (s : State) : Carried :=
  let n := u8 args 0
  if h : n < 24 then doneWith (tracksData s.now s.tu ⟨n, h⟩) s else refuse .badArgument s

/-- READ_TRACKS (R59). -/
def execReadTracks (s : State) : Host.Outcome State Fault Refusal :=
  takeCommand .readTracks carryReadTracks s

/-- A slot address of a request. -/
def slotOf (n : Nat) : Option Slot :=
  if h : n < 4 then some ⟨n, h⟩ else none

/-- READ_MODULES carried out (R121). -/
def carryReadModules (args : List Byte) (s : State) : Carried :=
  match linkOf (u8 args 0), slotOf (u8 args 1) with
  | some l, some k => doneWith (modulesData (moduleEntry s l k) (s.links.get l) k s.mu.isolation) s
  | some _, none | none, _ => refuse .badArgument s

/-- READ_MODULES (R121). -/
def execReadModules (s : State) : Host.Outcome State Fault Refusal :=
  takeCommand .readModules carryReadModules s

/-- READ_CONDITIONS carried out (R148). -/
def carryReadConditions (args : List Byte) (s : State) : Carried :=
  let first := u8 args 0
  let count := u8 args 1
  if natWithin 1 3 count && decide (first ≤ 15) && decide (first + count ≤ 16) then
    doneWith (conditionsData s.now s.cm first count) s
  else refuse .badArgument s

/-- READ_CONDITIONS (R148). -/
def execReadConditions (s : State) : Host.Outcome State Fault Refusal :=
  takeCommand .readConditions carryReadConditions s

/-- READ_STATISTICS carried out (R168). -/
def carryReadStatistics (args : List Byte) (s : State) : Carried :=
  let first := u8 args 1
  let count := u8 args 2
  match groupOf (u8 args 0), boolOf (u8 args 3) with
  | some g, some clear =>
    if natWithin 1 12 count && decide (first + count ≤ (groupCells g s).length) then
      doneWith (statisticsData g first count s) (if clear then clearGroup g first count s else s)
    else refuse .badArgument s
  | some _, none | none, _ => refuse .badArgument s

/-- READ_STATISTICS (R168). -/
def execReadStatistics (s : State) : Host.Outcome State Fault Refusal :=
  takeCommand .readStatistics carryReadStatistics s

/-- Whether a run of entries is one that a LOAD_TABLE or READ_TABLE may name (R171, R172). -/
def rangeOk (id : TableId) (first count : Nat) : Bool :=
  natWithin 1 (entriesPerFrame id) count && decide (first + count ≤ entryCount id)

/-- READ_TABLE carried out on a copy (R172). -/
def readCopy (id : TableId) (staged : Bool) (first count : Nat) (s : State) : Carried :=
  if staged then
    if isStaged s.mu.staged id then doneWith (tableData id first count (overlay s.mu.staged s.mu.tables)) s
    else refuse .refusedState s
  else doneWith (tableData id first count s.mu.tables) s

/-- READ_TABLE carried out (R172). -/
def carryReadTable (args : List Byte) (s : State) : Carried :=
  let first := u8 args 2
  let count := u8 args 3
  match tableOf (u8 args 0), boolOf (u8 args 1) with
  | some id, some staged => if rangeOk id first count then readCopy id staged first count s else refuse .badArgument s
  | some _, none | none, _ => refuse .badArgument s

/-- READ_TABLE (R172). -/
def execReadTable (s : State) : Host.Outcome State Fault Refusal :=
  takeCommand .readTable carryReadTable s

/-! ## Tables and configuration -/

/-- Slots that a Module Table load marked not present are treated as ABSENT (R101). -/
def moduleLoadFollows (id : TableId) (s : State) : State :=
  match id with
  | .modules => treatAbsent .right (treatAbsent .left s)
  | .curve | .classPolicy | .margin | .window | .derate | .condition | .vehicle | .build | .filter | .segMap
  | .profile | .mode | .link => s

/-- Entries written into the live copy, in force from this event (R171). -/
def loadLive (id : TableId) (first : Nat) (entries : List (List Byte)) (s : State) : Carried :=
  let before := s.mu.tables
  match writeEntries id first entries before with
  | .error n => badTable id n s
  | .ok t => done (moduleLoadFollows id (tableLives id before { s with mu := { s.mu with tables := t } }))

/-- Entries written into the staged copy, made from the live copy if there is none (R171). -/
def loadStaged (id : TableId) (first : Nat) (entries : List (List Byte)) (s : State) : Carried :=
  match writeEntries id first entries (overlay s.mu.staged s.mu.tables) with
  | .error n => badTable id n s
  | .ok t => done { s with mu := { s.mu with staged := stageTable id t s.mu.staged } }

/-- LOAD_TABLE after its argument check (R171, steps 2 and 3). -/
def loadEntries (id : TableId) (first : Nat) (entries : List (List Byte)) (s : State) : Carried :=
  match s.mu.config with
  | .config => loadLive id first entries s
  | .run =>
    if !tableLive id then refuse .refusedState s
    else if s.mu.commitPending then refuse .busyCommit s
    else loadStaged id first entries s

/-- LOAD_TABLE carried out (R171). -/
def carryLoadTable (args : List Byte) (s : State) : Carried :=
  let bytes := args.drop 2
  match tableOf (u8 args 0) with
  | none => refuse .badArgument s
  | some id =>
    let count := bytes.length / entrySize id
    if decide (bytes.length % entrySize id = 0) && rangeOk id (u8 args 1) count then
      loadEntries id (u8 args 1) (pieces (entrySize id) count bytes) s
    else refuse .badArgument s

/-- LOAD_TABLE (R171). -/
def execLoadTable (s : State) : Host.Outcome State Fault Refusal :=
  takeCommand .loadTable carryLoadTable s

/-- The tables with a staged copy, in order of id. -/
def stagedTables (st : Staging) : List TableId :=
  allTables.filter (isStaged st)

/-- COMMIT_TABLES carried out (R173). -/
def carryCommitTables (_ : List Byte) (s : State) : Carried :=
  if s.mu.config = .config then refuse .refusedState s
  else if s.mu.commitPending then refuse .busyCommit s
  else if (stagedTables s.mu.staged).isEmpty then refuse .refusedState s
  else
    match firstFailing (stagedTables s.mu.staged) (overlay s.mu.staged s.mu.tables) with
    | none => done (trigger (countManagement Stat.muCommits { s with mu := { s.mu with commitPending := true } }))
    | some (id, n) =>
      badTable id n (sendEvent .tableRejected (countManagement Stat.muCommitsRejected
        { s with mu := { s.mu with staged := emptyStaging } }))

/-- COMMIT_TABLES (R173). -/
def execCommitTables (s : State) : Host.Outcome State Fault Refusal :=
  takeCommand .commitTables carryCommitTables s

/-- DISCARD_STAGED carried out (R173). -/
def carryDiscardStaged (_ : List Byte) (s : State) : Carried :=
  match s.mu.config with
  | .config => done s
  | .run =>
    if s.mu.commitPending then refuse .busyCommit s
    else done { s with mu := { s.mu with staged := emptyStaging } }

/-- DISCARD_STAGED (R173). -/
def execDiscardStaged (s : State) : Host.Outcome State Fault Refusal :=
  takeCommand .discardStaged carryDiscardStaged s

/-- Whether the speed is known and below 5.0 km/h (R175). -/
def speedGate (f : RecordField Nat) : Bool :=
  f.fresh && f.value.any fun v => decide (v < 50)

/-- ENTER_CONFIG carried out (R175). -/
def carryEnterConfig (_ : List Byte) (s : State) : Carried :=
  if decide (s.mu.config = .run) && speedGate s.vsb.speed then
    done (trigger { s with
      mu := { s.mu with staged := emptyStaging, commitPending := false, config := .config }
      mail := { s.mail with tears := s.mail.tears ++ [.enterConfig] } })
  else refuse .refusedState s

/-- ENTER_CONFIG (R175). -/
def execEnterConfig (s : State) : Host.Outcome State Fault Refusal :=
  takeCommand .enterConfig carryEnterConfig s

/-- An EXIT_CONFIG that passes its checks (R176). It gives one build trigger, the last of R176's list; the set-up and
the clearing of the tracks give none of their own (assumption 30). -/
def exitConfig (s : State) : State :=
  let s := { s with mu := { s.mu with config := .run, tablesDefault := false } }
  trigger (setUpLink .right (setUpLink .left (clearTable s)))

/-- EXIT_CONFIG carried out (R176). -/
def carryExitConfig (_ : List Byte) (s : State) : Carried :=
  match s.mu.config with
  | .run => refuse .refusedState s
  | .config =>
    match firstFailing allTables s.mu.tables with
    | some (id, n) => badTable id n s
    | none =>
      doneWith (byte1 (undriven s.mu.tables.modules.left) ++ byte1 (undriven s.mu.tables.modules.right))
        (exitConfig s)

/-- EXIT_CONFIG (R176). -/
def execExitConfig (s : State) : Host.Outcome State Fault Refusal :=
  takeCommand .exitConfig carryExitConfig s

/-! ## Override, isolation and other blocks' commands -/

/-- The HOLD_LOW override takes a value; a change triggers a build (R169). -/
def setHoldLow (value : Bool) (s : State) : State :=
  if s.mu.holdLow = value then s else trigger { s with mu := { s.mu with holdLow := value } }

/-- HOLD_LOW carried out (R169). -/
def carryHoldLow (_ : List Byte) (s : State) : Carried :=
  done (setHoldLow true s)

/-- HOLD_LOW (R169). -/
def execHoldLow (s : State) : Host.Outcome State Fault Refusal :=
  takeCommand .holdLow carryHoldLow s

/-- RELEASE_HOLD carried out (R169). -/
def carryReleaseHold (_ : List Byte) (s : State) : Carried :=
  done (setHoldLow false s)

/-- RELEASE_HOLD (R169). -/
def execReleaseHold (s : State) : Host.Outcome State Fault Refusal :=
  takeCommand .releaseHold carryReleaseHold s

/-- A BROKEN module of a link returns to JOINING (R110). -/
def rejoinBroken (l : Link) (s : State) (k : Slot) : State :=
  if effState (moduleRec s l k) = .broken then enterJoining l k s else s

/-- Every BROKEN module of both links returns to JOINING (R110). -/
def rejoinAll (s : State) : State :=
  allSlots.foldl (rejoinBroken .right) (allSlots.foldl (rejoinBroken .left) s)

/-- SET_ISOLATION carried out (R110). -/
def carrySetIsolation (args : List Byte) (s : State) : Carried :=
  match boolOf (u8 args 0) with
  | none => refuse .badArgument s
  | some on => done (rejoinAll { s with mu := { s.mu with isolation := on } })

/-- SET_ISOLATION (R110). -/
def execSetIsolation (s : State) : Host.Outcome State Fault Refusal :=
  takeCommand .setIsolation carrySetIsolation s

/-- SET_STEER_ZERO carried out (R12). -/
def carrySetSteerZero (_ : List Byte) (s : State) : Carried :=
  done (steerZero s)

/-- SET_STEER_ZERO (R12). -/
def execSetSteerZero (s : State) : Host.Outcome State Fault Refusal :=
  takeCommand .setSteerZero carrySetSteerZero s

/-- CLEAR_TRACKS carried out (R57). -/
def carryClearTracks (_ : List Byte) (s : State) : Carried :=
  let s := clearTable s
  done { s with tu := { s.tu with stats := bumpAt Stat.trkClears s.tu.stats } }

/-- CLEAR_TRACKS (R57). -/
def execClearTracks (s : State) : Host.Outcome State Fault Refusal :=
  takeCommand .clearTracks carryClearTracks s

/-- CLEAR_NOTICE carried out (R147). -/
def carryClearNotice (args : List Byte) (s : State) : Carried :=
  if args.all fun n => decide (n.toNat ≤ 15) then done (clearNotices args s) else refuse .badArgument s

/-- CLEAR_NOTICE (R147). -/
def execClearNotice (s : State) : Host.Outcome State Fault Refusal :=
  takeCommand .clearNotice carryClearNotice s

/-- RECOVER of a condition carried out (R142). -/
def carryRecoverCondition (args : List Byte) (s : State) : Carried :=
  match condOf (u8 args 0) with
  | none => refuse .badArgument s
  | some c =>
    if recoverRefused c (condRec s c) then
      refuse .refusedState { s with cm := { s.cm with stats := bumpAt Stat.cmRecoversRefused s.cm.stats } }
    else done (runCondition c (recovered s.now c) s)

/-- RECOVER_CONDITION (R142). -/
def execRecoverCondition (s : State) : Host.Outcome State Fault Refusal :=
  takeCommand .recoverCondition carryRecoverCondition s

/-- RECOVER of a module carried out (R111). -/
def carryRecoverModule (args : List Byte) (s : State) : Carried :=
  match linkOf (u8 args 0), slotOf (u8 args 1) with
  | some l, some k =>
    if effState (moduleRec s l k) = .absent then refuse .refusedState s else done (enterJoining l k s)
  | some _, none | none, _ => refuse .badArgument s

/-- RECOVER_MODULE (R111). -/
def execRecoverModule (s : State) : Host.Outcome State Fault Refusal :=
  takeCommand .recoverModule carryRecoverModule s

/-- RESTART carried out (R177). -/
def carryRestart (_ : List Byte) (s : State) : Carried :=
  match s.mu.config with
  | .config => refuse .refusedState s
  | .run =>
    { state := { s with mu := { s.mu with restartPending := true } }, status := .done, data := [], restart := true }

/-- RESTART (R177). -/
def execRestart (s : State) : Host.Outcome State Fault Refusal :=
  takeCommand .restart carryRestart s

end Sys2Proof.Machine
end

