-- ==== Sys2Proof/Machine/ResetRows.lean ====
section
/-! DEFINITION. The commands of the reset pin and of power-on (R144, R178). -/

namespace Sys2Proof.Machine

/-- A reset that takes the built-in tables and samples the straps (R178). -/
def fullReset (cause : ResetCause) (mgb1 mgb0 : Bool) (s : State) : State :=
  runReset builtInTables true cause (strapOf mgb1 mgb0) steerPinReset s

/-- POWER_ON (R178). -/
def execPowerOn (mgb1 mgb0 : Bool) (s : State) : Host.Outcome State Fault Refusal :=
  .next (fullReset .power mgb1 mgb0 s)

/-- RESET_PIN (R178): RESETN is released. -/
def execResetPin (mgb1 mgb0 : Bool) (s : State) : Host.Outcome State Fault Refusal :=
  .next (fullReset .pin mgb1 mgb0 s)

/-- RESETN is driven low (R144): FBK is released, frames being sent are cut short, a build in flight is abandoned
(R66, R122, R163); the rest is set as the reset ends. -/
def holdInReset (s : State) : State :=
  let s := updLink .right (fun c => { c with tx := .idle }) (updLink .left (fun c => { c with tx := .idle }) s)
  { s with
    inReset := true
    cm := { s.cm with fbk := false }
    pb := { s.pb with build := none }
    up := { s.up with tx := none, held := none } }

/-- RESET_PIN_ASSERTED (R144). -/
def execResetPinAsserted (s : State) : Host.Outcome State Fault Refusal :=
  .next (holdInReset s)

end Sys2Proof.Machine
end

