-- ==== Sys2Proof/Machine/Scene.lean ====
section
/-! DEFINITION. The commands of the Scene Assembler (chapter 2). -/

namespace Sys2Proof.Machine

/-- A scene statistics counter one up. -/
def countScene (i : Fin 11) (s : State) : State :=
  { s with sa := { s.sa with stats := bumpAt i s.sa.stats } }

/-- The scene in progress, if there is one, is torn (R30). -/
def tearScene (s : State) : State :=
  match s.sa.progress with
  | none => s
  | some _ =>
    sendEvent .sceneTorn (countScene Stat.scenesTorn
      { s with sa := { s.sa with progress := none, buffer := [] } })

/-- A scene opened by a frame with index 0 (R25). -/
def openScene (number : Byte) (sa : Sa) : Sa :=
  { sa with
    progress := some { number := number, expected := 1, kept := 0, overflow := 0, truncated := false }
    buffer := [] }

/-- Whether a report of the same id and class stands in the buffer (R27). -/
def inBuffer (r : Report) (buffer : List Report) : Bool :=
  buffer.any fun b => decide (b.id = r.id) && decide (b.cls = r.cls)

/-- SA takes one report of a frame (R24, R27). -/
def takeReport (sa : Sa) (r : Option Report) : Sa :=
  match r, sa.progress with
  | none, _ => { sa with stats := bumpAt Stat.reportsInvalid sa.stats }
  | some _, none => sa
  | some r, some p =>
    if inBuffer r sa.buffer then { sa with stats := bumpAt Stat.reportsDuplicate sa.stats }
    else if sa.buffer.length < bufferCapacity then
      { sa with buffer := sa.buffer ++ [r], progress := some { p with kept := p.kept + 1 } }
    else
      { sa with
        progress := some { p with overflow := p.overflow + 1, truncated := true }
        stats := bumpAt Stat.reportsOverflow sa.stats }

/-- Whether a complete scene's number leaves a gap after the last complete one (R32). -/
def sceneGap (last : Option Byte) (number : Byte) : Bool :=
  match last with
  | none => false
  | some n => decide (number ≠ n + 1)

/-- The perception-stale flag is cleared by a complete scene (R28). -/
def clearStale (s : State) : State :=
  if s.sa.stale then
    sendLevel .perceptionStale none false { s with sa := { s.sa with stale := false } }
  else s

/-- The statistics of a complete scene (R28, R32). -/
def completeStats (p : SceneProgress) (sa : Sa) : Row 11 Nat :=
  let stats := bumpAt Stat.scenesTaken sa.stats
  let stats := if p.truncated then bumpAt Stat.scenesTruncated stats else stats
  if sceneGap sa.lastScene p.number then bumpAt Stat.sceneGaps stats else stats

/-- A complete scene (R28): counted, the scene timer restarted, the stale flag cleared, and the scene handed to TU
(R29). -/
def completeScene (p : SceneProgress) (s : State) : State :=
  let scene : Scene := { number := p.number, reports := s.sa.buffer, truncated := p.truncated }
  let s := { s with sa := { s.sa with
    stats := completeStats p s.sa, lastScene := some p.number
    timer := startTimer s.now s.mu.tables.link.sceneTimeout
    progress := none, buffer := [], handover := true } }
  let s := clearStale s
  { s with mail := { s.mail with toTu := s.mail.toTu ++ [.scene scene] } }

/-- The count check of a LAST frame (R28). -/
def countCheck (announced : Nat) (s : State) : State :=
  match s.sa.progress with
  | none => s
  | some p => if p.kept + p.overflow = announced then completeScene p s else tearScene s

/-- The reports of a frame that belongs to the scene in progress are taken, and LAST goes on to the count check (R22). -/
def takeReports (f : ObjectFrame) (s : State) : State :=
  let s := { s with sa := f.reports.foldl takeReport s.sa }
  if f.last then countCheck f.announced s else s

/-- A well-formed frame is placed in a scene, or tears or is discarded (R25, R26). -/
def placeFrame (f : ObjectFrame) (s : State) : State :=
  if f.index = 0 then
    let s := tearScene s
    takeReports f { s with sa := openScene f.number s.sa }
  else
    match s.sa.progress with
    | none => countScene Stat.objFramesOrphan s
    | some p =>
      if decide (p.number = f.number) && decide (p.expected = f.index) then
        takeReports f { s with sa := { s.sa with progress := some { p with expected := p.expected + 1 } } }
      else countScene Stat.objFramesOrphan (tearScene s)

/-- SA takes the oldest frame of the Object queue (R22, R23). -/
def takeObjectFrame (s : State) : State :=
  match s.up.objectQ with
  | [] => s
  | f :: rest =>
    let s := { s with up := { s.up with objectQ := rest } }
    match parseObject f.payload with
    | none => tearScene (countScene Stat.objFramesMalformed s)
    | some o => placeFrame o (countScene Stat.objFramesTaken s)

/-- OBJECT_FRAME_TAKE (R22): not while a scene waits for the Track Unit. -/
def execObjectFrameTake (s : State) : Host.Outcome State Fault Refusal :=
  whenever (!s.sa.handover) s takeObjectFrame

/-- The scene timer expires (R31). -/
def expireSceneTimer (s : State) : State :=
  let s := { s with sa := { s.sa with
    timer := none, stale := true, stats := bumpAt Stat.sceneTimeouts s.sa.stats } }
  let s := sendLevel .perceptionStale none true s
  { s with mail := { s.mail with toTu := s.mail.toTu ++ [.aging] } }

/-- SCENE_TIMER_EXPIRY (R31). -/
def execSceneTimerExpiry (s : State) : Host.Outcome State Fault Refusal :=
  whenever (due s.now s.sa.timer) s expireSceneTimer

/-- SA takes a tear from outside (R33). -/
def takeTear (cause : TearCause) (s : State) : State :=
  tearScene { s with mail := { s.mail with tears := s.mail.tears.erase cause } }

/-- EXTERNAL_SCENE_TEAR (R33). -/
def execExternalSceneTear (cause : TearCause) (s : State) : Host.Outcome State Fault Refusal :=
  whenever (s.mail.tears.contains cause) s (takeTear cause)

end Sys2Proof.Machine
end

