-- ==== Sys2Proof/Machine/Upstream.lean ====
section
/-! DEFINITION. The commands of the Upstream Port (chapter 9). -/

namespace Sys2Proof.Machine

/-- The port state after a change of the score (R152). -/
def portAfter (port : PortState) (score : Nat) : PortState :=
  match port with
  | .detached => .detached
  | .normal | .warned => if score < 48 then .normal else if score < 144 then .warned else .detached

/-- The frame in hand at entry into DETACHED: its transmission is cut short (R153, R161). -/
def cutInHand (outstanding : Bool) (u : Up) : Up :=
  match u.tx with
  | none => u
  | some x =>
    match x.kind with
    | .reply _ | .passUp => { u with tx := none, held := some x }
    | .notice =>
      if u.notice.isNone && outstanding then
        { u with tx := none, notice := some { payload := x.frame.payload, seq := some x.frame.seq } }
      else { u with tx := none }

/-- The port enters DETACHED (R153), in the order of the rule: counted, the recovery timer started, CM takes
LINK_DETACHED true in this event (assumption 28), SA is told, and the frame in hand is cut. -/
def detach (s : State) : State :=
  let s := takeReportNow ⟨.linkDetached, none, true⟩ { s with up := { s.up with
    recovery := startTimer s.now recoveryInterval, stats := bumpAt Stat.upDetaches s.up.stats } }
  { s with
    up := cutInHand s.cm.outstanding s.up
    mail := { s.mail with tears := s.mail.tears ++ [.detached] } }

/-- The error score changes, and the port state with it (R151 to R153). -/
def setScore (score : Nat) (s : State) : State :=
  let old := s.up.port
  let port := portAfter old score
  let s := { s with up := { s.up with score := score, port := port } }
  match port with
  | .normal => s
  | .warned => if old = .warned then s else countPort Stat.linkDegraded s
  | .detached => if old = .detached then s else detach s

/-- A receive error of one class (R150, R151). -/
def receiveError (stat : Fin 19) (s : State) : State :=
  setScore (min 255 (s.up.score + 6)) (countPort stat s)

/-- A good frame offered to the Management queue (R155). -/
def offerManagement (f : UpFrame) (s : State) : State :=
  if s.up.mgmtQ.length < managementCapacity then
    countPort Stat.upMgmtFrames { s with up := { s.up with mgmtQ := s.up.mgmtQ ++ [f] } }
  else countPort Stat.mgmtOverrun s

/-- A good frame offered to the Object queue (R157). -/
def offerObject (f : UpFrame) (s : State) : State :=
  if s.up.objectQ.length < objectCapacity then
    countPort Stat.upObjFrames { s with up := { s.up with objectQ := s.up.objectQ ++ [f] } }
  else sendEvent .objectOverrun (countPort Stat.upObjDropped s)

/-- A good frame placed in the Vehicle queue (R157). -/
def offerVehicle (f : UpFrame) (s : State) : State :=
  let full := decide (vehicleCapacity ≤ s.up.vehicleQ.length)
  let s := if full then countPort Stat.upVehDisplaced s else s
  let q := if full then s.up.vehicleQ.tail else s.up.vehicleQ
  countPort Stat.upVehFrames { s with up := { s.up with vehicleQ := q ++ [f] } }

/-- The Filter Table entry that decides for a stream code: the first enabled one that matches (R156). -/
def filterFor (t : Row 16 FilterEntry) (code : BitVec 10) : Option FilterAction :=
  (t.cells.find? fun e => e.enabled && decide ((code ^^^ e.code) &&& e.mask = 0)).map FilterEntry.action

/-- A good frame placed by the action of the matching entry (R157, R158). -/
def placeByAction (a : FilterAction) (f : UpFrame) (s : State) : State :=
  let p : PassFrame := ⟨f.code, f.payload⟩
  match a with
  | .object => offerObject f s
  | .vehicle => offerVehicle f s
  | .passLeft => offerPass .left p (countPort Stat.upPassDown s)
  | .passRight => offerPass .right p (countPort Stat.upPassDown s)
  | .passBoth => offerPass .right p (offerPass .left p (countPort Stat.upPassDown s))
  | .discard => countPort Stat.upDiscarded s

/-- A good frame is sorted (section 9.3). -/
def sortFrame (f : UpFrame) (s : State) : State :=
  if f.code = requestCode s.mu.strap then offerManagement f s
  else
    match filterFor s.mu.tables.filter f.code with
    | some a => placeByAction a f s
    | none => countPort Stat.upUnmatched s

/-- A good frame is received: counted, the score lowered, and the frame sorted (R150, R151). -/
def receiveGood (f : UpFrame) (s : State) : State :=
  sortFrame f (setScore (s.up.score - 1) (countPort Stat.upRxGood s))

/-- UP classes a frame at its end (R150). -/
def receiveUpstream (bytes : List Byte) (s : State) : State :=
  match upArrival bytes with
  | .badCheck => receiveError Stat.upRxCheck s
  | .long => receiveError Stat.upRxLong s
  | .cut => receiveError Stat.upRxCut s
  | .good f => receiveGood f s

/-- UPSTREAM_FRAME_RECEIVE (R150): a frame whose start came while the receiver did not listen is ignored. -/
def execUpstreamFrameReceive (began : Nat) (bytes : List Byte) (s : State) : Host.Outcome State Fault Refusal :=
  whenever (decide (s.up.port ≠ .detached) && decide (s.up.rxFrom + began ≤ s.now)) s (receiveUpstream bytes)

/-- The recovery from DETACHED (R154). -/
def recoverPort (s : State) : State :=
  upStart (sendLevel .linkDetached none false { s with up := { s.up with
    score := 0, port := .normal, recovery := none, rxFrom := s.now } })

/-- DETACHED_RECOVERY (R154). -/
def execDetachedRecovery (s : State) : Host.Outcome State Fault Refusal :=
  whenever (due s.now s.up.recovery) s recoverPort

/-- A frame's transmission on UPTX completes (R161); the completed reply to RESTART runs its reset (R177). -/
def upSent (x : UpTx) (s : State) : State :=
  let s := countPort Stat.upTxFrames { s with up := { s.up with tx := none } }
  match x.kind with
  | .reply restart => if restart && s.mu.restartPending then restartReset s else upStart s
  | .notice => upStart s
  | .passUp => upStart (countPort Stat.upPassUpSent s)

/-- UPSTREAM_TX_COMPLETE (R161). -/
def execUpstreamTxComplete (s : State) : Host.Outcome State Fault Refusal :=
  running s fun s =>
    match s.up.tx with
    | none => s
    | some x => upSent x s

end Sys2Proof.Machine
end

