-- ==== Sys2Proof/Machine/Dispatch.lean ====
section
/-! DEFINITION. Which meaning each command has: one arm per row of the table. -/

namespace Sys2Proof.Machine

/-- The effect of a command on everything but the queue. -/
def exec (i : Instr) (s : State) : Host.Outcome State Fault Refusal :=
  match i with
  | .powerOn mgb1 mgb0 => Sys2Proof.Machine.execPowerOn mgb1 mgb0 s
  | .resetPin mgb1 mgb0 => Sys2Proof.Machine.execResetPin mgb1 mgb0 s
  | .vehicleFrameTake => Sys2Proof.Machine.execVehicleFrameTake s
  | .stalenessTimerExpiry field => Sys2Proof.Machine.execStalenessTimerExpiry field s
  | .spdEdge => Sys2Proof.Machine.execSpdEdge s
  | .speedTimeoutExpiry => Sys2Proof.Machine.execSpeedTimeoutExpiry s
  | .steeringStep line => Sys2Proof.Machine.execSteeringStep line s
  | .phaseError => Sys2Proof.Machine.execPhaseError s
  | .vehicleParametersInForce => Sys2Proof.Machine.execVehicleParametersInForce s
  | .objectFrameTake => Sys2Proof.Machine.execObjectFrameTake s
  | .sceneTimerExpiry => Sys2Proof.Machine.execSceneTimerExpiry s
  | .externalSceneTear cause => Sys2Proof.Machine.execExternalSceneTear cause s
  | .sceneTake => Sys2Proof.Machine.execSceneTake s
  | .holdTimerExpiry track => Sys2Proof.Machine.execHoldTimerExpiry track s
  | .sceneTimeoutAging => Sys2Proof.Machine.execSceneTimeoutAging s
  | .classPolicyInForce => Sys2Proof.Machine.execClassPolicyInForce s
  | .buildRefreshTimerExpiry => Sys2Proof.Machine.execBuildRefreshTimerExpiry s
  | .buildCompletion => Sys2Proof.Machine.execBuildCompletion s
  | .generationTake => Sys2Proof.Machine.execGenerationTake s
  | .blockAckTake link => Sys2Proof.Machine.execBlockAckTake link s
  | .brokenNoticeTake link => Sys2Proof.Machine.execBrokenNoticeTake link s
  | .applyTimerExpiry => Sys2Proof.Machine.execApplyTimerExpiry s
  | .linkFrameReceive link bytes => Sys2Proof.Machine.execLinkFrameReceive link bytes s
  | .replyTimerExpiry link slot => Sys2Proof.Machine.execReplyTimerExpiry link slot s
  | .pollTimerExpiry link => Sys2Proof.Machine.execPollTimerExpiry link s
  | .wakeSequenceEnd link => Sys2Proof.Machine.execWakeSequenceEnd link s
  | .linkTxComplete link => Sys2Proof.Machine.execLinkTxComplete link s
  | .levelRawReport cond link => Sys2Proof.Machine.execLevelRawReport cond link s
  | .conditionEvent cond => Sys2Proof.Machine.execConditionEvent cond s
  | .persistenceTimerExpiry cond => Sys2Proof.Machine.execPersistenceTimerExpiry cond s
  | .levelRecoveryTimerExpiry cond => Sys2Proof.Machine.execLevelRecoveryTimerExpiry cond s
  | .eventRecoveryTimerExpiry cond => Sys2Proof.Machine.execEventRecoveryTimerExpiry cond s
  | .conditionTableInForce => Sys2Proof.Machine.execConditionTableInForce s
  | .upstreamFrameReceive began bytes => Sys2Proof.Machine.execUpstreamFrameReceive began bytes s
  | .detachedRecovery => Sys2Proof.Machine.execDetachedRecovery s
  | .upstreamTxComplete => Sys2Proof.Machine.execUpstreamTxComplete s
  | .malformedRequest => Sys2Proof.Machine.execMalformedRequest s
  | .readInfo => Sys2Proof.Machine.execReadInfo s
  | .readState => Sys2Proof.Machine.execReadState s
  | .readTracks => Sys2Proof.Machine.execReadTracks s
  | .readModules => Sys2Proof.Machine.execReadModules s
  | .readConditions => Sys2Proof.Machine.execReadConditions s
  | .readStatistics => Sys2Proof.Machine.execReadStatistics s
  | .readTable => Sys2Proof.Machine.execReadTable s
  | .loadTable => Sys2Proof.Machine.execLoadTable s
  | .commitTables => Sys2Proof.Machine.execCommitTables s
  | .discardStaged => Sys2Proof.Machine.execDiscardStaged s
  | .enterConfig => Sys2Proof.Machine.execEnterConfig s
  | .exitConfig => Sys2Proof.Machine.execExitConfig s
  | .holdLow => Sys2Proof.Machine.execHoldLow s
  | .releaseHold => Sys2Proof.Machine.execReleaseHold s
  | .setIsolation => Sys2Proof.Machine.execSetIsolation s
  | .setSteerZero => Sys2Proof.Machine.execSetSteerZero s
  | .clearTracks => Sys2Proof.Machine.execClearTracks s
  | .clearNotice => Sys2Proof.Machine.execClearNotice s
  | .recoverCondition => Sys2Proof.Machine.execRecoverCondition s
  | .recoverModule => Sys2Proof.Machine.execRecoverModule s
  | .restart => Sys2Proof.Machine.execRestart s
  | .resetPinAsserted => Sys2Proof.Machine.execResetPinAsserted s

end Sys2Proof.Machine
end

