-- ==== Sys2Proof/Machine/Step.lean ====
section
/-! DEFINITION. One step of the part: the command at the front of the queue, or the passing of one microsecond. -/

namespace Sys2Proof.Machine

/-- A step takes the command at the front of the queue; on an empty queue the clock moves on by one microsecond
(assumption 3). -/
def step (s : State) : Host.Outcome State Fault Refusal :=
  match s.pending with
  | [] => .next { s with now := s.now + 1 }
  | c :: rest => exec c { s with pending := rest }

/-- The state with the command a table word spells put at the front of the queue; unchanged where it spells none. -/
def State.withFetchWord (s : State) (nbits w : Nat) : State :=
  match decodeTableWord nbits w with
  | none => s
  | some c => { s with pending := c :: s.pending }

end Sys2Proof.Machine
end

