-- ==== Sys2Proof/Safety.lean ====
section
/-! DEFINITION. What counts as a sound state, part by part, and what the frames of shared operations keep: the terms the
statements are written in. Every part of soundness holds right after reset and is kept by every step. -/

namespace Sys2Proof.Machine

/-! ## Soundness, part by part -/

/-- No queue holds more than its capacity (section 9.5, R114, R27); the Pattern queues' is part of `PatternSound`. -/
def QueuesBounded (s : State) : Prop :=
  s.up.objectQ.length ≤ objectCapacity ∧ s.up.vehicleQ.length ≤ vehicleCapacity
    ∧ s.up.mgmtQ.length ≤ managementCapacity ∧ s.up.replyQ.length ≤ replyCapacity
    ∧ s.up.passUpQ.length ≤ passUpCapacity ∧ s.links.left.passQ.length ≤ passCapacity
    ∧ s.links.right.passQ.length ≤ passCapacity ∧ s.sa.buffer.length ≤ bufferCapacity

/-- The latched report set is non-empty exactly while a notice is outstanding, and a NOTICE waits only then (R146,
R147). -/
def NoticesSound (s : State) : Prop :=
  s.cm.outstanding = anyLatched s.cm.latched ∧ (s.up.notice.isSome = true → s.cm.outstanding = true)

/-- In CONFIG the staging area is empty and no commit is pending (R175). Unless RESETN holds the part, a commit is
pending only while a build is in flight with another pending behind it: its own trigger started a build that took it,
or merged into one in flight (R61, R64). -/
def ConfigSound (s : State) : Prop :=
  (s.mu.config = .config → s.mu.staged = emptyStaging ∧ s.mu.commitPending = false)
    ∧ (s.mu.commitPending = true → s.inReset = true ∨ (s.pb.build ≠ none ∧ s.pb.rebuild = true))

/-- The ack set, the apply timer and the Waiting slot agree with the Delivering slot and its phase (R123, R124, R128,
R130), and the ack set holds no member twice. -/
def DeliverySound (s : State) : Prop :=
  s.du.ackSet.Nodup ∧
    match s.du.delivering with
    | none => s.du.ackSet = [] ∧ s.du.applyTimer = none ∧ s.du.waiting = none
    | some (_, .blocks) => s.du.ackSet ≠ [] ∧ s.du.applyTimer.isSome = true
    | some (_, .applying) => s.du.ackSet = [] ∧ s.du.applyTimer = none

/-- No Pattern queue holds more than 5 frames (R113). Unless RESETN holds the part, each agrees with the delivery: empty
with nothing being delivered; in phase BLOCKS, at most four blocks of the generation; in phase APPLYING, its APPLY waits
behind such blocks, or is being sent with nothing behind it, or has been transmitted (R124, R128 to R130). No other
APPLY is ever being sent. -/
def PatternSound (s : State) : Prop :=
  (∀ l : Link, (s.links.get l).patternQ.length ≤ 5) ∧
    (s.inReset = true ∨ ∀ l : Link,
      let c := s.links.get l
      let sendsApply : Prop := ∃ gen seq, c.tx = .sending (.pattern (.apply gen)) seq
      let blocksOf (gen : Byte) (fs : List PatternFrame) : Prop :=
        fs.length ≤ 4 ∧ ∀ f ∈ fs, ∃ k levels, f = .block k gen levels
      match s.du.delivering with
      | none => c.patternQ = [] ∧ ¬sendsApply
      | some (g, .blocks) => s.du.applyDone.get l = false ∧ blocksOf g.number c.patternQ ∧ ¬sendsApply
      | some (g, .applying) =>
        (s.du.applyDone.get l = false ∧ ¬sendsApply
          ∧ ∃ fs, blocksOf g.number fs ∧ c.patternQ = fs ++ [.apply g.number])
        ∨ (s.du.applyDone.get l = false ∧ sendsApply ∧ c.patternQ = [])
        ∨ (s.du.applyDone.get l = true ∧ ¬sendsApply ∧ c.patternQ = []))

/-- The port state is the band its score lies in, and it is DETACHED exactly while the recovery timer runs, sending
nothing then (R151 to R154). -/
def PortSound (s : State) : Prop :=
  (s.up.port = .normal → s.up.score < 48) ∧ (s.up.port = .warned → 48 ≤ s.up.score ∧ s.up.score < 144)
    ∧ (s.up.port = .detached → 144 ≤ s.up.score ∧ s.up.score ≤ 255 ∧ s.up.tx = none)
    ∧ (s.up.port = .detached ↔ s.up.recovery.isSome = true)

/-- Unless RESETN holds the part, a link's transmitter is IDLE only while no member requests it (R115). -/
def LinksAwake (s : State) : Prop :=
  s.inReset = true ∨ ∀ l : Link, (s.links.get l).tx = .idle → anyRequest (s.links.get l) = false

/-- Counts per degree in its range, in a copy of the Vehicle Parameters (section 1.6). -/
def CountsPerDegreeOk (p : VehicleParams) : Prop :=
  1 ≤ p.countsPerDegree ∧ p.countsPerDegree ≤ 64

/-- The steering pin and the pin speed stay in the ranges of sections 1.3 and 1.4, with the counts per degree of the
live and of the staged table in theirs. -/
def PinsSound (s : State) : Prop :=
  (-32768 ≤ s.vsb.pin.counter ∧ s.vsb.pin.counter ≤ 32767)
    ∧ (-78848 ≤ s.vsb.pin.reference ∧ s.vsb.pin.reference ≤ 78847)
    ∧ (-7200 ≤ s.vsb.pin.angle ∧ s.vsb.pin.angle ≤ 7200) ∧ s.vsb.pin.phaseErrors ≤ 8 ∧ s.vsb.pinSpeed ≤ 2000
    ∧ CountsPerDegreeOk s.mu.tables.vehicle ∧ ∀ p ∈ s.mu.staged.vehicle, CountsPerDegreeOk p

/-- A level condition's record: CLEAR and RECOVERING only with the raw value false, ALERT only with it true, and each
timer exactly in the state that started it (R138). -/
def LevelRecordSound (c : Cond) (r : CondRec) : Prop :=
  (r.state = .clear → condRaw c r = false) ∧ (r.state = .recovering → condRaw c r = false)
    ∧ (r.state = .alert → condRaw c r = true) ∧ (r.persist.isSome = true ↔ r.state = .alert)
    ∧ (r.recover.isSome = true ↔ r.state = .recovering)

/-- An event condition's record: no persistence timer, no timer and no count in CLEAR, and the recovery timer running
in ALERT and RECOVERING (R140). -/
def EventRecordSound (r : CondRec) : Prop :=
  r.persist = none ∧ (r.state = .clear → r.recover = none ∧ r.count = 0) ∧ (r.state = .alert → r.recover.isSome = true)
    ∧ (r.state = .recovering → r.recover.isSome = true)

/-- Every condition's record is sound for its kind, and what is on its way to CM is of the kind it is sent as (R135,
R138, R140). -/
def ConditionsSound (s : State) : Prop :=
  (∀ c : Cond, condKind c = .level → LevelRecordSound c (condRec s c))
    ∧ (∀ c : Cond, condKind c = .event → EventRecordSound (condRec s c))
    ∧ (∀ x ∈ s.mail.levels, condKind x.cond = .level) ∧ (∀ c ∈ s.mail.events, condKind c = .event)

/-- A hold timer runs for each COASTING track and for no other, and hits stay within 15 (R54, R36). -/
def TracksSound (s : State) : Prop :=
  ∀ (n : TrackNo) (t : Track), s.tu.tracks.get n = some t →
    (t.hold.isSome = true ↔ t.state = .coasting) ∧ t.hits ≤ 15

/-- What tells two reports or tracks apart: report id and class (R27, R35). -/
def reportKey (r : Report) : Byte × ObjClass := (r.id, r.cls)

/-- The reports of the scenes handed over to TU. -/
def handedReports : ToTu → List Report
  | .scene x => x.reports
  | .aging => []

/-- No two non-FREE entries hold the same report id and class, nor do two reports of the buffer or of a scene on its
way (R35, R27). -/
def KeysDistinct (s : State) : Prop :=
  (∀ (m n : TrackNo) (t u : Track), s.tu.tracks.get m = some t → s.tu.tracks.get n = some u → t.id = u.id →
      t.cls = u.cls → m = n)
    ∧ (s.sa.buffer.map reportKey).Nodup ∧ ∀ x ∈ s.mail.toTu, ((handedReports x).map reportKey).Nodup

/-- Unless Vehicle Parameters that came into force still wait to be taken, the speed and steering record fields are
what the sources select and the raw values last sent are the ones that stand (R14 to R18). -/
def VehicleRecordSound (s : State) : Prop :=
  s.mail.vehicleParams = 0 →
    s.vsb.speed = selectSpeed s.mu.tables.vehicle s.vsb ∧ s.vsb.steer = selectSteer s.mu.tables.vehicle s.vsb
      ∧ s.vsb.sent = vehicleRaws s.mu.tables.vehicle s.vsb

/-- What each link last sent CM stands at the raw values its Module records give (R112). SEGMENT_FAILED is left out in
CONFIG, where a Module Table load may move a window with no re-evaluation of its own. -/
def LinkRawsSound (s : State) : Prop :=
  ∀ l : Link,
    let raws := linkRaws s.mu.tables l (s.links.get l).modules
    let sent := (s.links.get l).sent
    sent.broken = raws.broken ∧ sent.selfFallback = raws.selfFallback ∧ sent.overtemp = raws.overtemp
      ∧ (s.mu.config = .run → sent.segFailed = raws.segFailed)

/-! ## Frames: what an operation may change -/

/-- What a build start may change in MU: the live tables, the staging area and the commit-pending flag (R64). -/
def buildMu (mu : Mu) (t : Mu) : Mu :=
  { mu with tables := t.tables, staged := t.staged, commitPending := t.commitPending }

/-- What a build start may change of the messages: raw reports of the links and the tables that came into force. -/
def buildMail (m : Mail) (t : Mail) : Mail :=
  { m with
    levels := t.levels, vehicleParams := t.vehicleParams, classPolicy := t.classPolicy, condTable := t.condTable }

/-- Nothing changed but what a build trigger may change: PB, and where it starts a build that takes a commit, the
tables, what each link last sent CM, and the messages that follow (R61, R64, R65). -/
def OnlyBuild (s t : State) : Prop :=
  t = { s with
    pb := t.pb, mu := buildMu s.mu t.mu, mail := buildMail s.mail t.mail
    links :=
      { left := { s.links.left with sent := t.links.left.sent }
        right := { s.links.right with sent := t.links.right.sent } } }

/-! ## Events: the state an event leaves, spelled out -/

/-- A timer that runs so many ms from now. -/
def timerIn (s : State) (ms : Nat) : Timer :=
  some (s.now + 1000 * ms)

/-- The report of a raw value that changed, if it did. -/
def changed (c : Cond) (l : Option Link) (old new : Bool) : List LevelReport :=
  if old = new then [] else [⟨c, l, new⟩]

/-- The reports of the three stale raw values that changed (R17). -/
def staleChanges (old new : VehicleRaws) : List LevelReport :=
  changed .speedStale none old.speedStale new.speedStale ++ changed .steerStale none old.steerStale new.steerStale
    ++ changed .requestStale none old.requestStale new.requestStale

/-- The raw values after an event that leaves this VSB, with this disagreement (R16, R17). -/
def rawsWith (v : Vsb) (disagree : Bool) : VehicleRaws :=
  { speedStale := !v.speed.fresh, steerStale := !v.steer.fresh, requestStale := !v.request.fresh
    disagree := disagree }

/-- The part with this VSB, its changed stale raw values on their way to CM (R17). -/
def withVsb (v : Vsb) (s : State) : State :=
  { s with
    vsb := { v with sent := rawsWith v v.sent.disagree }
    mail := { s.mail with levels := s.mail.levels ++ staleChanges v.sent (rawsWith v v.sent.disagree) } }

/-- The part after an event that leaves this VSB and concerns speed: record field and raw values (section 1.5). -/
def afterSpeed (v : Vsb) (s : State) : State :=
  withVsb { v with speed := selectSpeed s.mu.tables.vehicle v } s

/-- The part after an event that leaves this VSB and concerns steering: record field, disagreement and raw values
(section 1.5). -/
def afterSteer (v : Vsb) (s : State) : State :=
  let w := { v with steer := selectSteer s.mu.tables.vehicle v }
  let raw := disagreeRaw s.mu.tables.vehicle w
  withVsb { w with sent := { v.sent with disagree := raw } }
    { s with
      mail := { s.mail with levels := s.mail.levels ++ changed .steerDisagree none v.sent.disagree raw } }

/-- The part after an event that leaves this VSB and concerns speed and steering. -/
def afterVehicle (v : Vsb) (s : State) : State :=
  afterSteer { v with speed := selectSpeed s.mu.tables.vehicle v } s

/-- A frame input just written with a value (R2). -/
def written {α : Type} (s : State) (limit : Nat) (x : α) : FrameInput α :=
  { value := some x, updatedAt := some s.now, fresh := true, timer := timerIn s limit }

/-- A frame input after a frame that carries the field, or does not (R2). -/
def writtenIf {α : Type} (s : State) (limit : Nat) (x : Option α) (i : FrameInput α) : FrameInput α :=
  match x with
  | none => i
  | some a => written s limit a

/-- A frame input whose staleness timer has expired: the value and the time of its update are kept (R3). -/
def expired {α : Type} (i : FrameInput α) : FrameInput α :=
  { value := i.value, updatedAt := i.updatedAt, fresh := false, timer := none }

/-- MU can take this request, the oldest waiting: nothing is held in reset, there is room for the reply, and no RESTART
is pending (R165). -/
def Takes (s : State) (f : UpFrame) (rest : List UpFrame) : Prop :=
  s.inReset = false ∧ s.up.mgmtQ = f :: rest ∧ s.up.replyQ.length < 4 ∧ s.mu.restartPending = false

/-- A request's payload holds this command code, some tag, and these arguments, and its frame carries LAST (section
11.3, R164). -/
def Asks (f : UpFrame) (code : Byte) (args : List Byte) : Prop :=
  f.last = true ∧ ∃ tag, f.payload = code :: tag :: args

/-- The part with the oldest request taken from the Management queue. -/
def afterTaking (rest : List UpFrame) (s : State) : State :=
  { s with up := { s.up with mgmtQ := rest } }

/-- A request answered: the reply at the tail of the Reply queue, MU_COMMANDS counted, MU_BAD_REQUESTS for an
UNKNOWN_COMMAND or BAD_ARGUMENT, and the transmitter started if it can (R164, R165, R161). -/
def answered (f : UpFrame) (status : Status) (data : List Byte) (restart : Bool) (s : State) : State :=
  let item : Reply := ⟨replyPayload (requestTag f) f.seq status data, restart⟩
  let commands := bumpAt Stat.muCommands s.mu.stats
  let stats := if status = .unknownCommand ∨ status = .badArgument then bumpAt Stat.muBadRequests commands else commands
  let t := { s with
    up := { s.up with replyQ := s.up.replyQ ++ [item] }
    mu := { s.mu with stats := stats } }
  { t with up := upStartUp t.mu.strap t.up }

/-- What the settling makes of a track at the end of a scene (R48 to R52); none where it is freed. -/
def settledTrack (r : AssocRules) (truncated matched : Bool) (t : Track) : Option Track :=
  match matched, t.state with
  | true, .tentative =>
    if (policyOf r.policy t.cls).confirmScenes ≤ t.hits then some { t with state := .confirmed } else some t
  | true, .confirmed | true, .coasting => some t
  | false, .coasting =>
    some { t with
      left := max (-400) (t.left - (policyOf r.policy t.cls).growth)
      right := min 400 (t.right + (policyOf r.policy t.cls).growth) }
  | false, .tentative => if truncated then some t else none
  | false, .confirmed =>
    if truncated then some t
    else if (policyOf r.policy t.cls).holdTime = 0 then none
    else some { t with
      state := .coasting, hits := 0, hold := some (r.now + 1000 * (policyOf r.policy t.cls).holdTime) }

/-- What the scene-timeout changes make of a track (R56); none where it is freed. -/
def agedTrack (s : State) (t : Track) : Option Track :=
  match t.state with
  | .coasting => some t
  | .tentative => none
  | .confirmed =>
    if (policyOf s.mu.tables.classPolicy t.cls).holdTime = 0 then none
    else some { t with
      state := .coasting, hits := 0
      hold := timerIn s (policyOf s.mu.tables.classPolicy t.cls).holdTime }

/-- A vehicle frame that the check of R2 passes: it names a field, and every value lies in its range (R1). -/
def FrameInRange (f : VehicleFrame) : Prop :=
  (f.speed.isSome || f.steer.isSome || f.pitch.isSome || f.request.isSome || f.road.isSome || f.weather.isSome) = true
    ∧ (∀ x ∈ f.speed, x ≤ 2000) ∧ (∀ x ∈ f.steer, -7200 ≤ x ∧ x ≤ 7200) ∧ (∀ x ∈ f.pitch, -50 ≤ x ∧ x ≤ 50)
    ∧ ∀ x ∈ f.weather, x ≤ 7

/-- The bytes of a value that is carried, none of one that is not. -/
def carried {α : Type} (bytes : α → List Byte) (x : Option α) : List Byte :=
  (x.map bytes).getD []

/-- The payload of a vehicle frame: the presence set, then the values in the order of its bits (section 11.2). -/
def vehiclePayload (f : VehicleFrame) : List Byte :=
  BitVec.ofNat 8 (f.speed.isSome.toNat + 2 * f.steer.isSome.toNat + 4 * f.pitch.isSome.toNat
      + 8 * f.request.isSome.toNat + 16 * f.road.isSome.toNat + 32 * f.weather.isSome.toNat)
    :: (carried bytes2 f.speed ++ carried sbytes2 f.steer ++ carried sbyte1 f.pitch
      ++ carried (fun r => byte1 (requestNo r)) f.request ++ carried (fun r => byte1 (roadNo r)) f.road
      ++ carried byte1 f.weather)

/-- A report that R24 calls valid, its confidence within its four digits (section 2.1). -/
def ReportInRange (r : Report) : Prop :=
  -400 ≤ r.left ∧ r.left ≤ r.right ∧ r.right ≤ 400 ∧ -100 ≤ r.upper ∧ r.upper ≤ 100 ∧ r.confidence ≤ 15
    ∧ (∀ y ∈ r.lower, -100 ≤ y ∧ y ≤ r.upper) ∧ ∀ d ∈ r.distance, d ≤ 1000

/-- The 64-bit number of a report: its fields by their weights (section 11.2). -/
def reportNumber (r : Report) : Nat :=
  r.id.toNat * 2 ^ 56 + (classNo r.cls).val * 2 ^ 53 + r.confidence * 2 ^ 49 + (r.left % 2048).toNat * 2 ^ 38
    + (r.right % 2048).toNat * 2 ^ 27 + (r.upper % 256).toNat * 2 ^ 19 + (r.lower.getD (-128) % 256).toNat * 2 ^ 11
    + r.distance.getD 2047

/-! ## Table entries: which bytes pass, and what is read back -/

/-- Two windows share no segment: one lies wholly above, below, left or right of the other. -/
def WindowsApart (a b : ModuleEntry) : Prop :=
  a.firstRow + a.rowCount ≤ b.firstRow ∨ b.firstRow + b.rowCount ≤ a.firstRow
    ∨ a.firstColumn + a.columnCount ≤ b.firstColumn ∨ b.firstColumn + b.columnCount ≤ a.firstColumn

/-- The entry checks of R174 on the bytes of entry `n` of a table, against the table as it stands: the ranges of each
field (R3, R37, R70 to R73, R84, R87, R91, R101, R119, R136, R156) and the codes of section 11.6. -/
def EntryPasses (id : TableId) (n : Nat) (bs : List Byte) (t : Tables) : Prop :=
  match id with
  | .curve =>
    if n = 0 then
      1 ≤ u16 bs 0 ∧ u16 bs 0 < u16 bs 2 ∧ u16 bs 2 < u16 bs 4 ∧ u16 bs 4 < u16 bs 6 ∧ u16 bs 6 ≤ 7200
    else u16 bs 0 ≤ 2000 ∧ ∀ k < 9, -150 ≤ s16 bs (2 + 2 * k) ∧ s16 bs (2 + 2 * k) ≤ 150
  | .classPolicy =>
    u8 bs 0 ≤ 15 ∧ 1 ≤ u8 bs 1 ∧ u8 bs 1 ≤ 8 ∧ u8 bs 2 ≤ 1 ∧ u16 bs 3 ≤ 5000 ∧ u8 bs 5 ≤ 100 ∧ u8 bs 6 ≤ 100
      ∧ u8 bs 7 ≤ 100 ∧ u8 bs 8 ≤ 100 ∧ u8 bs 10 ≤ 1 ∧ u8 bs 11 ≤ 7 ∧ u8 bs 12 ≤ 20
  | .margin => (n ≠ 4 → u16 bs 0 ≤ 1000) ∧ u8 bs 2 ≤ 100
  | .window =>
    u8 bs 0 ≤ 2 ∧ -400 ≤ s16 bs 1 ∧ s16 bs 1 ≤ s16 bs 3 ∧ s16 bs 3 ≤ 400 ∧ -100 ≤ s8 bs 6 ∧ s8 bs 6 ≤ s8 bs 5
      ∧ s8 bs 5 ≤ 100 ∧ u8 bs 7 ≤ 1
  | .derate => True
  | .condition =>
    u8 bs 0 ≤ 2 ∧ u8 bs 5 ≤ 1 ∧ u8 bs 6 ≤ 3 ∧
      if n = 1 ∨ n = 2 ∨ n = 3 ∨ n = 12 ∨ n = 15 then
        1 ≤ u16 bs 1 ∧ u16 bs 1 ≤ 255 ∧ 10 ≤ u16 bs 3 ∧ u16 bs 3 ≤ 10000
      else u16 bs 1 ≤ 10000 ∧ u16 bs 3 ≤ 10000
  | .vehicle =>
    (∀ k < 6, 50 ≤ u16 bs (2 * k) ∧ u16 bs (2 * k) ≤ 5000) ∧ u8 bs 12 ≤ 2 ∧ 2000 ≤ u16 bs 13 ∧ u16 bs 13 ≤ 25000
      ∧ 200 ≤ u16 bs 15 ∧ u16 bs 15 ≤ 5000 ∧ u8 bs 17 ≤ 2 ∧ 1 ≤ u8 bs 18 ∧ u8 bs 18 ≤ 64 ∧ 10 ≤ u16 bs 19
      ∧ u16 bs 19 ≤ 1000
  | .build => 1 ≤ u8 bs 0 ∧ u8 bs 0 ≤ 50 ∧ 1 ≤ u8 bs 1 ∧ 1 ≤ u8 bs 2 ∧ 1 ≤ u8 bs 4 ∧ u8 bs 4 ≤ 7
  | .filter => u8 bs 0 ≤ 1 ∧ u16 bs 1 ≤ 1023 ∧ u16 bs 3 ≤ 1023 ∧ u8 bs 5 ≤ 5
  | .segMap =>
    -400 ≤ s16 bs 0 ∧ s16 bs 0 ≤ 400 ∧ 5 ≤ u8 bs 2 ∧ u8 bs 2 ≤ 40 ∧ -100 ≤ s8 bs 3 ∧ s8 bs 3 ≤ 100 ∧ 5 ≤ u8 bs 4
      ∧ u8 bs 4 ≤ 40
  | .modules =>
    u8 bs 0 ≤ 1 ∧ (u8 bs 0 = 1 →
      1 ≤ u8 bs 2 ∧ u8 bs 1 + u8 bs 2 ≤ 4 ∧ 1 ≤ u8 bs 4 ∧ u8 bs 3 + u8 bs 4 ≤ 24 ∧ u8 bs 2 * u8 bs 4 ≤ 48
        ∧ ∀ j : Slot, j.val ≠ n % 4 →
          let other := (t.modules.get (if n < 4 then .left else .right)).get j
          other.present = true → WindowsApart other ⟨true, u8 bs 1, u8 bs 2, u8 bs 3, u8 bs 4⟩)
  | .profile => n % 9 = 8 → u8 bs 0 ≤ 1
  | .mode =>
    if n = 0 then
      u16 bs 0 ≤ 2000 ∧ u16 bs 2 ≤ 2000 ∧ u8 bs 4 ≤ 200 ∧ 1 ≤ u8 bs 5 ∧ u8 bs 5 ≤ 8 ∧ 1 ≤ u8 bs 6 ∧ u8 bs 6 ≤ 25
    else u8 bs 0 ≤ 7 ∧ u8 bs 1 ≤ 1
  | .link =>
    20 ≤ u16 bs 0 ∧ u16 bs 0 ≤ 1000 ∧ 1 ≤ u8 bs 2 ∧ u8 bs 2 ≤ 20 ∧ 1 ≤ u8 bs 3 ∧ u8 bs 3 ≤ 15 ∧ u8 bs 4 ≤ 1
      ∧ u8 bs 5 ≤ 1 ∧ u8 bs 6 ≤ 2 ∧ 2 ≤ u8 bs 7 ∧ u8 bs 7 ≤ 50 ∧ 50 ≤ u16 bs 8 ∧ u16 bs 8 ≤ 1000 ∧ 20 ≤ u8 bs 10
      ∧ u8 bs 10 ≤ 200

/-- The table checks of R174 on entry `n` of a table: a band's bound lies above that of the band before. -/
def BandRises (id : TableId) (n : Nat) (t : Tables) : Prop :=
  match id with
  | .curve =>
    2 ≤ n → (t.curve.bands.get (Fin.ofNat 8 (n - 2))).bound < (t.curve.bands.get (Fin.ofNat 8 (n - 1))).bound
  | .margin =>
    1 ≤ n → n ≤ 3 →
      (t.margin.bands.get (Fin.ofNat 4 (n - 1))).bound < (t.margin.bands.get (Fin.ofNat 4 n)).bound
  | .classPolicy | .window | .derate | .condition | .vehicle | .build | .filter | .segMap | .modules | .profile
  | .mode | .link => True

/-- The bytes of an entry with its pad bytes 0 (R180). -/
def padsCleared (id : TableId) (n : Nat) (bs : List Byte) : List Byte :=
  match id with
  | .curve => if n = 0 then bs.take 8 ++ List.replicate 12 0 else bs
  | .margin => if n = 4 then [0, 0] ++ bs.drop 2 else bs
  | .profile => if n % 9 = 8 then bs.take 1 ++ List.replicate 23 0 else bs
  | .mode => if n = 0 then bs else bs.take 2 ++ List.replicate 5 0
  | .classPolicy | .window | .derate | .condition | .vehicle | .build | .filter | .segMap | .modules | .link => bs

/-- The bytes READ_TABLE returns for entry `n` of a table: its fields in the order and widths of section 11.5, by the
codes of section 11.6, its pad bytes 0 (R180). -/
def entryLayout (id : TableId) (n : Nat) (t : Tables) : List Byte :=
  match id with
  | .curve =>
    if n = 0 then
      bytes2 t.curve.b1 ++ bytes2 t.curve.b2 ++ bytes2 t.curve.b3 ++ bytes2 t.curve.b4 ++ List.replicate 12 0
    else
      let b := t.curve.bands.get (Fin.ofNat 8 (n - 1))
      bytes2 b.bound ++ b.values.cells.flatMap sbytes2
  | .classPolicy =>
    let p := t.classPolicy.get (Fin.ofNat 6 n)
    byte1 p.minConfidence ++ byte1 p.confirmScenes ++ flag1 p.shadowTentative ++ bytes2 p.holdTime
      ++ byte1 p.marginLeft ++ byte1 p.marginRight ++ byte1 p.marginTop ++ byte1 p.gate ++ byte1 p.shadowLevel
      ++ flag1 p.hard ++ byte1 p.priority ++ byte1 p.growth
  | .margin =>
    if n = 4 then [0, 0] ++ byte1 t.margin.absentExtra
    else bytes2 (t.margin.bands.get (Fin.ofNat 4 n)).bound ++ byte1 (t.margin.bands.get (Fin.ofNat 4 n)).extra
  | .window =>
    let w := t.window.get (Fin.ofNat 4 n)
    byte1 ([WindowLamp.left, .right, .both].idxOf w.lamp) ++ sbytes2 w.left ++ sbytes2 w.right ++ sbyte1 w.upper
      ++ sbyte1 w.lower ++ byte1 ([WindowKind.cap, .floor].idxOf w.kind) ++ byte1 w.level ++ [w.modes]
  | .derate => byte1 (t.derate.get (Fin.ofNat 8 n))
  | .condition =>
    let e := t.condition.get (Fin.ofNat 16 n)
    byte1 ([ReportAt.never, .alert, .fault].idxOf e.report) ++ bytes2 e.persistence ++ bytes2 e.recovery
      ++ flag1 e.latching ++ byte1 ([Action.none, .dim, .lowOnly, .fallback].idxOf e.action)
  | .vehicle =>
    let v := t.vehicle
    let source (x : SourceChoice) : List Byte := byte1 ([SourceChoice.frame, .pin, .frameElsePin].idxOf x)
    bytes2 v.speedLimit ++ bytes2 v.steerLimit ++ bytes2 v.pitchLimit ++ bytes2 v.requestLimit ++ bytes2 v.roadLimit
      ++ bytes2 v.weatherLimit ++ source v.speedSource ++ bytes2 v.pulsesPerKm ++ bytes2 v.speedTimeout
      ++ source v.steerSource ++ byte1 v.countsPerDegree ++ bytes2 v.disagreeLimit
  | .build =>
    byte1 t.build.swivelStep ++ byte1 t.build.upStep ++ byte1 t.build.downStep ++ byte1 t.build.dimLevel
      ++ byte1 t.build.overtempBand
  | .filter =>
    let f := t.filter.get (Fin.ofNat 16 n)
    flag1 f.enabled ++ bytes2 f.code.toNat ++ bytes2 f.mask.toNat
      ++ byte1 ([FilterAction.object, .vehicle, .passLeft, .passRight, .passBoth, .discard].idxOf f.action)
  | .segMap =>
    let g := t.segMap.get (if n = 0 then .left else .right)
    let zones (k : Fin 12) : Nat := (List.finRange 8).foldl
      (fun x j => 2 * x + if g.high.get ⟨8 * k.val + j.val, by omega⟩ then 1 else 0) 0
    sbytes2 g.origin ++ byte1 g.columnPitch ++ sbyte1 g.rowCentre ++ byte1 g.rowPitch
      ++ (List.finRange 12).flatMap fun k => byte1 (zones k)
  | .modules =>
    let e := (t.modules.get (if n < 4 then .left else .right)).get (Fin.ofNat 4 n)
    flag1 e.present ++ byte1 e.firstRow ++ byte1 e.rowCount ++ byte1 e.firstColumn ++ byte1 e.columnCount
  | .profile =>
    let p := t.profile.get (Fin.ofNat 8 (n / 9))
    if n % 9 = 8 then byte1 ([EdgeRule.hold, .dark].idxOf p.edge) ++ List.replicate 23 0
    else ((p.levels.get (if n % 9 < 4 then .left else .right)).get (Fin.ofNat 4 (n % 9))).cells.flatMap byte1
  | .mode =>
    let m := t.mode
    if n = 0 then
      bytes2 m.townSpeed ++ bytes2 m.motorwaySpeed ++ byte1 m.hysteresis ++ byte1 m.adverseThreshold
        ++ byte1 m.townThreshold
    else
      let row := [m.low, m.town, m.country, m.motorway, m.adverse].getD (n - 1) m.full
      byte1 row.profile.val ++ flag1 row.shadowsApply ++ List.replicate 5 0
  | .link =>
    let p := t.link
    bytes2 p.pollPeriod ++ byte1 p.replyTimeout ++ byte1 p.missLimit ++ flag1 p.insistent
      ++ byte1 ([ParkMode.lastMember, .defaultMember].idxOf p.parkMode)
      ++ byte1 ([Member.pattern, .pass, .pollGroup].idxOf p.defaultMember) ++ byte1 p.applyTimeout
      ++ bytes2 p.sceneTimeout ++ byte1 p.buildPeriod

end Sys2Proof.Machine
end

