-- ==== Sys2Proof/Certificates/Slice0/Obligations.lean ====
section
/-! DEFINITION. The statements for the provers: one Prop each, listed in OBLIGATIONS.json. -/

open Sys2Proof Sys2Proof.Machine

/-- A step is the command at the front of the queue, run on the rest (95: each row is one whole, indivisible step).
The tick of an empty queue is the model's choice (assumption 3). -/
def Obligations.StepTakesFrontCommand : Prop :=
  (∀ (c : Instr) (rest : List Instr) (s : State),
      s.pending = c :: rest → step s = exec c { s with pending := rest })
    ∧ ∀ s : State, s.pending = [] → step s = .next { s with now := s.now + 1 }

/-- No command stops the part, and none touches the commands that wait behind it. -/
def Obligations.EveryCommandCompletesAndKeepsTheQueue : Prop :=
  ∀ (c : Instr) (s : State), ∃ t, exec c s = .next t ∧ t.pending = s.pending

/-- RESETN low holds the part in reset (00, Pin list): nothing is taken (assumption 18). -/
def Obligations.NothingIsTakenWhileHeldInReset : Prop :=
  ∀ (c : Instr) (s : State), s.inReset = true →
    match c with
    | .powerOn .. | .resetPin .. | .resetPinAsserted => True
    | .steeringStep .sta => exec c s = .next { s with sta := !s.sta }
    | .steeringStep .stb => exec c s = .next { s with stb := !s.stb }
    | .phaseError => exec c s = .next { s with sta := !s.sta, stb := !s.stb }
    | _ => exec c s = .next s

/-- The state after reset satisfies every invariant stated below (R21, R34, R57, R80, R122, R133, R149, R163, R178).
-/
def Obligations.ResetStateIsSound : Prop :=
  QueuesBounded State.reset ∧ NoticesSound State.reset ∧ ConfigSound State.reset ∧ DeliverySound State.reset
    ∧ PortSound State.reset ∧ LinksAwake State.reset ∧ PinsSound State.reset
    ∧ ConditionsSound State.reset ∧ TracksSound State.reset ∧ KeysDistinct State.reset
    ∧ VehicleRecordSound State.reset ∧ LinkRawsSound State.reset ∧ PatternSound State.reset

/-- The reset rows (R178, R144): what each leaves, whatever stood before. That both keep the levels of STA and STB is
assumption 17; what RESETN low clears at once is assumption 18. -/
def Obligations.PowerOnAndResetPinLeaveTheResetState : Prop :=
  (∀ (a b : Bool) (s : State),
      exec (.powerOn a b) s = .next { State.reset with
        sta := s.sta, stb := s.stb, pending := s.pending, mu := { State.reset.mu with strap := strapOf a b } }
      ∧ exec (.resetPin a b) s = .next { State.reset with
        sta := s.sta, stb := s.stb, pending := s.pending
        mu := { State.reset.mu with strap := strapOf a b, cause := .pin } })
    ∧ ((strapOf false false).val = 0 ∧ (strapOf false true).val = 1 ∧ (strapOf true false).val = 2
      ∧ (strapOf true true).val = 3)
    ∧ ∀ s : State, exec .resetPinAsserted s = .next { s with
        inReset := true, cm := { s.cm with fbk := false }, pb := { s.pb with build := none }
        up := { s.up with tx := none, held := none }
        links := { left := { s.links.left with tx := .idle }, right := { s.links.right with tx := .idle } } }

/-- R178, item by item, for each kind of reset. What `builtInTables` holds is spelled out in ResetValuesOfEveryBlock.
-/
def Obligations.ResetLeavesTheManagementUnit : Prop :=
  (∀ (a b : Bool) (s : State), ∃ t u, exec (.powerOn a b) s = .next t ∧ exec (.resetPin a b) s = .next u
      ∧ t.mu = { config := .run, holdLow := false, isolation := true, tables := builtInTables, staged := emptyStaging
                 commitPending := false, tablesDefault := true, cause := .power, strap := strapOf a b
                 restartPending := false, stats := Row.fill 4 0 }
      ∧ u.mu = { t.mu with cause := .pin }
      ∧ t.up.mgmtQ = [] ∧ t.up.replyQ = [] ∧ u.up.mgmtQ = [] ∧ u.up.replyQ = [])
    ∧ (∀ (s : State) (f : UpFrame), s.inReset = false → s.up.tx = some ⟨.reply true, f⟩ → s.mu.restartPending = true →
      ∃ t, exec .upstreamTxComplete s = .next t
        ∧ t.mu = { config := .run, holdLow := false, isolation := true, tables := s.mu.tables, staged := emptyStaging
                   commitPending := false, tablesDefault := s.mu.tablesDefault, cause := .restart, strap := s.mu.strap
                   restartPending := false, stats := Row.fill 4 0 }
        ∧ t.up.mgmtQ = [] ∧ t.up.replyQ = [])
    ∧ ∀ s : State, ∃ t, exec .detachedRecovery s = .next t ∧ t.mu = s.mu

/-- R21, R34, R57, R60, R80, R122, R133, R149 and R163 at power-on. The built-in tables: R3 and section 1.6, R37, R70
to R73, R84, R87, R90, R91, R101, R119, R136 and R156. -/
def Obligations.ResetValuesOfEveryBlock : Prop :=
  let s := State.reset
  (s.vsb.speedIn = ⟨none, none, false, none⟩ ∧ s.vsb.steerIn = ⟨none, none, false, none⟩
      ∧ s.vsb.pitch = ⟨none, none, false, none⟩ ∧ s.vsb.request = ⟨none, none, false, none⟩
      ∧ s.vsb.road = ⟨none, none, false, none⟩ ∧ s.vsb.weather = ⟨none, none, false, none⟩
      ∧ s.vsb.speed = ⟨some 0, .pin, true⟩ ∧ s.vsb.steer = ⟨none, .frame, false⟩ ∧ s.vsb.lastEdge = none
      ∧ s.vsb.period = none ∧ s.vsb.pinSpeed = 0 ∧ s.vsb.spdTimer = none ∧ s.vsb.pin = ⟨0, 0, false, 0, 0⟩
      ∧ s.vsb.stats = Row.fill 7 0)
    ∧ s.sa = ⟨none, [], none, none, false, false, Row.fill 11 0⟩ ∧ s.tu = ⟨Row.fill 24 none, Row.fill 14 0⟩
    ∧ (s.pb.build.isSome = true ∧ s.pb.rebuild = false ∧ s.pb.refresh = some 40000 ∧ s.pb.latch = none
      ∧ s.pb.mode = .off ∧ s.pb.swivel = 0 ∧ s.pb.rowShift = 0
      ∧ s.pb.previous = ⟨Row.fill 96 0, Row.fill 96 0⟩ ∧ s.pb.generation = 0 ∧ s.pb.stats.cells = [1, 0, 0, 0]
      ∧ s.pb.build = some (inputsOf s.vsb s.tu s.links s.cm s.mu s.pb))
    ∧ (∀ l, (s.links.get l).patternQ = [] ∧ (s.links.get l).passQ = [] ∧ (s.links.get l).tx = .waking
      ∧ (s.links.get l).txSeq = 0 ∧ (s.links.get l).pollTimer = some 100000
      ∧ ((s.links.get l).modules.get 0).state = .joining ∧ ((s.links.get l).modules.get 1).state = .joining
      ∧ ((s.links.get l).modules.get 2).state = .absent ∧ ((s.links.get l).modules.get 3).state = .absent
      ∧ (s.links.get l).poll.cells = [some .join, some .join, none, none] ∧ (s.links.get l).stats = Row.fill 13 0
      ∧ (s.links.get l).lastGranted = .pollGroup ∧ (s.links.get l).lastServed = 3
      ∧ (s.links.get l).sent = ⟨false, false, false, false⟩
      ∧ ∀ k, (s.links.get l).modules.get k
        = ⟨((s.links.get l).modules.get k).state, 0, 0, [], false, none, false⟩)
    ∧ s.du = ⟨none, none, [], none, ⟨false, false⟩, none, false, Row.fill 9 0⟩
    ∧ (s.cm.recs = Row.fill 16 ⟨.clear, false, false, false, 0, none, none, 0⟩ ∧ s.cm.action = .none
      ∧ s.cm.appliedMode = none ∧ s.cm.fbk = false ∧ s.cm.latched = Row.fill 16 false ∧ s.cm.outstanding = false
      ∧ s.cm.stats = Row.fill 3 0)
    ∧ s.up = ⟨.normal, 0, none, [], [], [], [], none, [], none, none, 0, 0, Row.fill 19 0⟩
    ∧ (s.mu.tables = builtInTables ∧
      let t := builtInTables
      t.vehicle = ⟨300, 100, 1000, 500, 2000, 2000, .frameElsePin, 8000, 1000, .frameElsePin, 12, 150⟩
      ∧ t.classPolicy.cells =
        [⟨3, 1, true, 600, 10, 10, 10, 20, 0, true, 7, 6⟩, ⟨4, 2, false, 1500, 8, 8, 8, 15, 0, true, 6, 2⟩,
         ⟨3, 1, true, 800, 12, 12, 10, 20, 0, true, 5, 5⟩, ⟨6, 2, false, 500, 10, 10, 5, 10, 90, false, 3, 2⟩,
         ⟨8, 3, false, 300, 5, 5, 5, 10, 60, false, 2, 0⟩, ⟨8, 3, false, 300, 0, 0, 0, 10, 255, false, 1, 0⟩]
      ∧ t.mode = ⟨400, 600, 50, 5, 3, ⟨0, false⟩, ⟨1, true⟩, ⟨2, true⟩, ⟨3, true⟩, ⟨4, true⟩, ⟨5, false⟩⟩
      ∧ (∀ l, let g := t.segMap.get l
        g.origin = (match l with | .left => -276 | .right => -270) ∧ g.columnPitch = 24 ∧ g.rowCentre = 30
          ∧ g.rowPitch = 20 ∧ ∀ i : SegNo, g.high.get i = true ↔ i.val / 24 ≤ 1)
      ∧ (∀ (n : Fin 8) (l : Link) (r : Fin 4) (c : Fin 24),
        let outer := [[0, 0, 200, 200], [0, 60, 220, 220], [160, 200, 200, 200], [120, 160, 180, 180],
          [0, 80, 220, 220], [255, 255, 255, 255], [0, 0, 200, 200], [0, 0, 200, 200]]
        let centre := [[0, 0, 200, 200], [0, 100, 220, 220], [255, 255, 220, 200], [255, 255, 200, 180],
          [0, 120, 220, 220], [255, 255, 255, 255], [0, 0, 200, 200], [0, 0, 200, 200]]
        (t.profile.get n).edge = .hold ∧ (((t.profile.get n).levels.get l).get r).get c
          = ((if 6 ≤ c.val ∧ c.val ≤ 17 then centre else outer).getD n []).getD r 0)
      ∧ (t.curve.b1 = 300 ∧ t.curve.b2 = 900 ∧ t.curve.b3 = 1800 ∧ t.curve.b4 = 3600)
      ∧ (∀ k : Fin 8,
        let v : List Int := [[20, 60, 120, 150], [20, 60, 110, 140], [25, 70, 110, 130], [30, 75, 100, 120],
          [35, 70, 90, 100], [35, 60, 80, 90], [30, 50, 60, 70], [25, 40, 50, 60]].getD k []
        (t.curve.bands.get k).bound = [300, 500, 700, 900, 1100, 1300, 1600, 2000].getD k 0
          ∧ (t.curve.bands.get k).values.cells = (v.map fun x => -x).reverse ++ [0] ++ v)
      ∧ (t.margin.bands.cells = [⟨50, 30⟩, ⟨150, 16⟩, ⟨400, 8⟩, ⟨1000, 4⟩] ∧ t.margin.absentExtra = 20)
      ∧ t.window.cells = List.replicate 4 ⟨.both, 0, 0, 0, 0, .cap, 255, 0⟩
      ∧ t.derate.cells = [255, 255, 255, 255, 230, 190, 140, 80] ∧ t.build = ⟨8, 16, 64, 40, 6⟩
      ∧ (∀ l, let w := t.modules.get l
        w.get 0 = ⟨true, 0, 2, 0, 24⟩ ∧ w.get 1 = ⟨true, 2, 2, 0, 24⟩ ∧ (w.get 2).present = false
          ∧ (w.get 3).present = false)
      ∧ t.link = ⟨100, 5, 3, true, .defaultMember, .pattern, 10, 150, 40⟩
      ∧ t.condition.cells =
        [⟨.fault, 300, 1000, false, .dim⟩, ⟨.alert, 10, 2000, false, .none⟩, ⟨.alert, 5, 2000, false, .none⟩,
         ⟨.alert, 5, 2000, false, .none⟩, ⟨.alert, 500, 500, false, .none⟩, ⟨.alert, 500, 1000, false, .none⟩,
         ⟨.fault, 1000, 500, false, .lowOnly⟩, ⟨.alert, 1000, 1000, false, .none⟩, ⟨.fault, 0, 0, true, .lowOnly⟩,
         ⟨.alert, 2000, 1000, false, .none⟩, ⟨.fault, 0, 0, true, .none⟩, ⟨.alert, 1000, 5000, false, .none⟩,
         ⟨.fault, 3, 2000, false, .dim⟩, ⟨.fault, 500, 500, false, .fallback⟩, ⟨.fault, 0, 1000, false, .dim⟩,
         ⟨.alert, 1, 1000, false, .none⟩]
      ∧ t.filter.cells = [⟨true, 256, 1008, .object⟩, ⟨true, 128, 1020, .vehicle⟩]
        ++ List.replicate 14 ⟨false, 0, 0, .discard⟩)

/-- R177: a RESTART reset is as a power-on, except in what it keeps. The clock at 0 is assumption 3, the order of the
raw reports the reset ends with assumption 26. -/
def Obligations.RestartKeepsTablesAndSteeringReference : Prop :=
  ∀ (s : State) (f : UpFrame), s.inReset = false → s.up.tx = some ⟨.reply true, f⟩ → s.mu.restartPending = true →
    ∃ t, exec .upstreamTxComplete s = .next t ∧ t.mu.cause = .restart ∧ t.mu.tables = s.mu.tables
      ∧ t.mu.tablesDefault = s.mu.tablesDefault ∧ t.mu.strap = s.mu.strap
      ∧ t.vsb.pin.counter = s.vsb.pin.counter ∧ t.vsb.pin.reference = s.vsb.pin.reference
      ∧ t.vsb.pin.referenced = s.vsb.pin.referenced ∧ t.vsb.pin.phaseErrors = s.vsb.pin.phaseErrors
      ∧ t.vsb.pinSpeed = 0 ∧ t.vsb.lastEdge = none ∧ t.vsb.request.value = none ∧ t.vsb.request.fresh = false
      ∧ t.sa = State.reset.sa ∧ t.tu = State.reset.tu ∧ t.du = State.reset.du ∧ t.cm = State.reset.cm
      ∧ t.up = State.reset.up ∧ t.pb.build.isSome = true ∧ t.pb.mode = .off ∧ t.pb.generation = 0
      ∧ (∀ l k, (t.links.get l).modules.get k = moduleSetUp ((s.mu.tables.modules.get l).get k)
        ∧ (t.links.get l).poll.get k = pollSetUp ((s.mu.tables.modules.get l).get k))
      ∧ t.mail.events = [] ∧ t.mail.toTu = [] ∧ t.mail.records = [] ∧ t.mail.acks = [] ∧ t.now = 0
      ∧ t.mail.tears = [] ∧ t.mail.broken = [] ∧ t.mail.vehicleParams = 0 ∧ t.mail.classPolicy = 0
      ∧ t.mail.condTable = []
      ∧ (let link (l : Link) : List LevelReport :=
          [⟨.moduleBroken, some l, false⟩, ⟨.moduleSelfFallback, some l, false⟩, ⟨.segmentFailed, some l, false⟩,
           ⟨.overtemp, some l, (t.links.get l).sent.overtemp⟩]
        t.mail.levels =
          [⟨.speedStale, none, !t.vsb.speed.fresh⟩, ⟨.steerStale, none, !t.vsb.steer.fresh⟩,
           ⟨.requestStale, none, true⟩, ⟨.steerDisagree, none, false⟩, ⟨.perceptionStale, none, false⟩]
          ++ link .left ++ link .right ++ [⟨.noModules, none, false⟩, ⟨.linkDetached, none, false⟩])

/-- R5 and R7, case by case, with everything they leave alone. -/
def Obligations.SpdEdgesAndTheirTimeout : Prop :=
  ∀ s : State, s.inReset = false →
    let p := s.mu.tables.vehicle
    (s.vsb.lastEdge = none → exec .spdEdge s = .next { s with vsb := { s.vsb with
        lastEdge := some s.now, spdTimer := timerIn s p.speedTimeout } })
    ∧ (∀ t, s.vsb.lastEdge = some t → s.now - t < 200 →
        exec .spdEdge s = .next { s with vsb := { s.vsb with stats := bumpAt Stat.spdGlitches s.vsb.stats } })
    ∧ (∀ t, s.vsb.lastEdge = some t → 200 ≤ s.now - t →
        let speed := pinSpeedOf (s.now - t) p.pulsesPerKm
        let v := { s.vsb with
          lastEdge := some s.now, period := some (s.now - t), pinSpeed := speed
          spdTimer := timerIn s p.speedTimeout }
        exec .spdEdge s = .next (if speed = s.vsb.pinSpeed then { s with vsb := v } else afterSpeed v s))
    ∧ (due s.now s.vsb.spdTimer = true → exec .speedTimeoutExpiry s = .next (afterSpeed { s.vsb with
        pinSpeed := 0, lastEdge := none, period := none, spdTimer := none
        stats := bumpAt Stat.spdTimeouts s.vsb.stats } s))

/-- R6 and R11, with the rounding of 00 said by what it means. -/
def Obligations.PinSpeedAndAngleRound : Prop :=
  (∀ (x : Int) (d : Nat), 0 < d →
      2 * |x - d * roundDiv x d| ≤ d ∧ (2 * |x - d * roundDiv x d| = d → |x| < |d * roundDiv x d|))
    ∧ (∀ period pulses : Nat, 1000000 < period → pinSpeedOf period pulses = 0)
    ∧ (∀ period pulses : Nat, period ≤ 1000000 → 0 < period → 0 < pulses →
      (pinSpeedOf period pulses : Int) = min 2000 (roundDiv 36000000000 (period * pulses)))
    ∧ ∀ (counter reference : Int) (cpd : Nat),
      pinAngleOf counter reference cpd = max (-7200) (min 7200 (roundDiv ((counter - reference) * 10) cpd))

/-- R8's table, read as: STA rising with STB low, or falling with it high, and STB rising with STA high, or falling
with it low, count up. R10 at the ends. -/
def Obligations.SteeringStepMovesTheCounter : Prop :=
  ∀ (line : SteerLine) (s : State), s.inReset = false →
    let rising := match line with | .sta => !s.sta | .stb => !s.stb
    let other := match line with | .sta => s.stb | .stb => s.sta
    let up := match line with | .sta => rising != other | .stb => rising == other
    let n : Int := if up then s.vsb.pin.counter + 1 else s.vsb.pin.counter - 1
    let t := match line with | .sta => { s with sta := rising } | .stb => { s with stb := rising }
    let pin := s.vsb.pin
    (-32768 ≤ n ∧ n ≤ 32767 → exec (.steeringStep line) s = .next (afterSteer { s.vsb with pin := { pin with
        counter := n
        angle := if pin.referenced then pinAngleOf n pin.reference s.mu.tables.vehicle.countsPerDegree
                 else pin.angle } } t))
    ∧ (¬(-32768 ≤ n ∧ n ≤ 32767) → exec (.steeringStep line) s = .next (afterSteer { s.vsb with
        pin := { pin with referenced := false }, stats := bumpAt Stat.steerSaturations s.vsb.stats } t))

/-- R9. -/
def Obligations.PhaseErrorCountsTowardEight : Prop :=
  ∀ s : State, s.inReset = false →
    let t := { s with sta := !s.sta, stb := !s.stb }
    let v := { s.vsb with
      pin := { s.vsb.pin with phaseErrors := min 8 (s.vsb.pin.phaseErrors + 1) }
      stats := bumpAt Stat.steerPhaseErrors s.vsb.stats }
    (v.pin.phaseErrors = 8 ∧ v.pin.referenced = true →
      exec .phaseError s = .next (afterSteer { v with pin := { v.pin with referenced := false } } t))
    ∧ (¬(v.pin.phaseErrors = 8 ∧ v.pin.referenced = true) → exec .phaseError s = .next { t with vsb := v })

/-- R2, R4 and R13 on the oldest frame of the Vehicle queue; the pin angle is the one R11 computes (assumption 16). -/
def Obligations.VehicleFrameIsRejectedOrTaken : Prop :=
  (∀ (s : State) (f : UpFrame) (rest : List UpFrame), s.inReset = false → s.up.vehicleQ = f :: rest →
    let base := { s with up := { s.up with vehicleQ := rest } }
    let p := s.mu.tables.vehicle
    (parseVehicle f.payload = none → exec .vehicleFrameTake s = .next { base with
        vsb := { s.vsb with stats := bumpAt Stat.vehFramesRejected s.vsb.stats } })
    ∧ ∀ vf, parseVehicle f.payload = some vf →
      let v := { s.vsb with
        speedIn := writtenIf s p.speedLimit vf.speed s.vsb.speedIn
        steerIn := writtenIf s p.steerLimit vf.steer s.vsb.steerIn
        pitch := writtenIf s p.pitchLimit vf.pitch s.vsb.pitch
        request := writtenIf s p.requestLimit vf.request s.vsb.request
        road := writtenIf s p.roadLimit vf.road s.vsb.road
        weather := writtenIf s p.weatherLimit vf.weather s.vsb.weather }
      let w := autoReference p vf.steer v
      let t := afterVehicle { w with stats := bumpAt Stat.vehFramesTaken w.stats } base
      exec .vehicleFrameTake s = .next
        (if vf.request.isSome = true ∧ (s.vsb.request.fresh = false ∨ vf.request ≠ s.vsb.request.value) then trigger t
         else t))
    ∧ ∀ (p : VehicleParams) (v : Vsb), autoReference p none v = v
      ∧ ∀ a : Int,
        (p.steerSource = .frameElsePin ∧ v.pin.referenced = false →
          let reference := v.pin.counter - roundDiv (a * p.countsPerDegree) 10
          autoReference p (some a) v = { v with
            pin := { counter := v.pin.counter, reference := reference, referenced := true, phaseErrors := 0
                     angle := pinAngleOf v.pin.counter reference p.countsPerDegree }
            stats := bumpAt Stat.steerAutoRefs v.stats })
        ∧ (¬(p.steerSource = .frameElsePin ∧ v.pin.referenced = false) → autoReference p (some a) v = v)

/-- The check of R2 with R179, as one equivalence: what passes is the payload of a frame in range (section 11.2), and
it decodes to that frame. -/
def Obligations.VehiclePayloadsDecode : Prop :=
  (∀ f : VehicleFrame, FrameInRange f → parseVehicle (vehiclePayload f) = some f)
    ∧ ∀ (payload : List Byte) (f : VehicleFrame), parseVehicle payload = some f →
      FrameInRange f ∧ payload = vehiclePayload f

/-- R3 and R4, field by field. -/
def Obligations.StalenessExpiryOfEachField : Prop :=
  ∀ s : State, s.inReset = false →
    (due s.now s.vsb.speedIn.timer = true →
      exec (.stalenessTimerExpiry .speed) s = .next (afterSpeed { s.vsb with speedIn := expired s.vsb.speedIn } s))
    ∧ (due s.now s.vsb.steerIn.timer = true →
      exec (.stalenessTimerExpiry .steering) s = .next (afterSteer { s.vsb with steerIn := expired s.vsb.steerIn } s))
    ∧ (due s.now s.vsb.pitch.timer = true →
      exec (.stalenessTimerExpiry .pitch) s = .next { s with vsb := { s.vsb with pitch := expired s.vsb.pitch } })
    ∧ (due s.now s.vsb.request.timer = true →
      exec (.stalenessTimerExpiry .request) s
        = .next (trigger (withVsb { s.vsb with request := expired s.vsb.request } s)))
    ∧ (due s.now s.vsb.road.timer = true →
      exec (.stalenessTimerExpiry .road) s = .next { s with vsb := { s.vsb with road := expired s.vsb.road } })
    ∧ (due s.now s.vsb.weather.timer = true →
      exec (.stalenessTimerExpiry .weather) s = .next { s with vsb := { s.vsb with weather := expired s.vsb.weather } })

/-- R18 and R38. -/
def Obligations.NewTablesComeIntoForceAtVsbAndTu : Prop :=
  ∀ s : State, s.inReset = false →
    (0 < s.mail.vehicleParams →
      let p := s.mu.tables.vehicle
      let pin := s.vsb.pin
      let v := { s.vsb with
        pinSpeed := match s.vsb.period with | none => s.vsb.pinSpeed | some t => pinSpeedOf t p.pulsesPerKm
        pin := { pin with
          angle := if pin.referenced then pinAngleOf pin.counter pin.reference p.countsPerDegree else pin.angle } }
      exec .vehicleParametersInForce s
        = .next (afterVehicle v { s with mail := { s.mail with vehicleParams := s.mail.vehicleParams - 1 } }))
    ∧ (0 < s.mail.classPolicy → exec .classPolicyInForce s
        = .next { s with mail := { s.mail with classPolicy := s.mail.classPolicy - 1 } })

/-- R14 and R15, cell by cell, and R16. Where the steering source is PIN and the pin has no usable angle, the source
is PIN: the model's reading (assumption 15). The age is R1's in whole ms (assumption 27). -/
def Obligations.RecordFieldsFollowTheSourceTables : Prop :=
  ∀ (p : VehicleParams) (v : Vsb),
    (p.speedSource = .frame → selectSpeed p v = ⟨v.speedIn.value, .frame, v.speedIn.fresh⟩)
    ∧ (p.speedSource = .pin → selectSpeed p v = ⟨some v.pinSpeed, .pin, true⟩)
    ∧ (p.speedSource = .frameElsePin →
      selectSpeed p v = if v.speedIn.fresh then ⟨v.speedIn.value, .frame, true⟩ else ⟨some v.pinSpeed, .pin, true⟩)
    ∧ (p.steerSource = .frame → selectSteer p v = ⟨v.steerIn.value, .frame, v.steerIn.fresh⟩)
    ∧ (p.steerSource = .pin → selectSteer p v
      = if v.pin.referenced then ⟨some v.pin.angle, .pin, true⟩ else ⟨none, .pin, false⟩)
    ∧ (p.steerSource = .frameElsePin → selectSteer p v
      = match v.steerIn.fresh, v.pin.referenced with
        | true, _ => ⟨v.steerIn.value, .frame, true⟩
        | false, true => ⟨some v.pin.angle, .pin, true⟩
        | false, false => ⟨v.steerIn.value, .frame, false⟩)
    ∧ (∀ now, fieldAge now (selectSpeed p v) v.speedIn
          = (if (selectSpeed p v).source = .pin then 0 else ageOf now v.speedIn)
        ∧ fieldAge now (selectSteer p v) v.steerIn
          = if (selectSteer p v).source = .pin then 0 else ageOf now v.steerIn)
    ∧ (∀ (α : Type) (now : Nat) (i : FrameInput α),
      (i.updatedAt = none → ageOf now i = 65535)
      ∧ ∀ at_, i.updatedAt = some at_ → ageOf now i = min 65535 ((now - at_) / 1000))
    ∧ (v.steerIn.value = none → disagreeRaw p v = false)
    ∧ ∀ a, v.steerIn.value = some a → (disagreeRaw p v = true
        ↔ v.steerIn.fresh = true ∧ v.pin.referenced = true ∧ (p.disagreeLimit : Int) < |a - v.pin.angle|)

/-- Section 1.5: selection is re-evaluated at every event that can change its outcome, and each changed raw value is
sent. -/
def Obligations.VehicleRecordAndPinsStaySound : Prop :=
  (∀ s t : State, VehicleRecordSound s → step s = .next t → VehicleRecordSound t)
    ∧ ∀ s t : State, PinsSound s → step s = .next t → PinsSound t

/-- R23 (with R179 and section 11.2), R26 and R30 on the oldest frame of the Object queue. -/
def Obligations.ObjectFramesThatTearOrAreDiscarded : Prop :=
  (∀ payload : List Byte,
      let index := u8 payload 1 / 16
      let last : Prop := u8 payload 1 / 8 % 2 = 1
      let count := u8 payload 1 % 8
      let announced := u8 payload 2
      let malformed : Prop := payload.length < 3 ∨ 10 < index ∨ (index = 10 ∧ ¬last) ∨ (last ∧ 33 < announced)
        ∨ 3 < count ∨ (count = 0 ∧ ¬(index = 0 ∧ last ∧ announced = 0)) ∨ payload.length ≠ 3 + 8 * count
      (malformed → parseObject payload = none)
      ∧ (¬malformed → ∃ o, parseObject payload = some o ∧ o.number.toNat = u8 payload 0 ∧ o.index = index
        ∧ (o.last = true ↔ last) ∧ o.announced = announced ∧ o.reports.length = count
        ∧ ∀ k, k < count → o.reports[k]? = some (parseReport payload (3 + 8 * k))))
    ∧ ∀ (s : State) (f : UpFrame) (rest : List UpFrame), s.inReset = false → s.sa.handover = false →
    s.up.objectQ = f :: rest →
    let base := { s with up := { s.up with objectQ := rest } }
    let torn (stats : Row 11 Nat) := { base with
      sa := { s.sa with progress := none, buffer := [], stats := bumpAt Stat.scenesTorn stats }
      mail := { s.mail with events := s.mail.events ++ [.sceneTorn] } }
    let taken := bumpAt Stat.objFramesTaken s.sa.stats
    (parseObject f.payload = none →
      let stats := bumpAt Stat.objFramesMalformed s.sa.stats
      (s.sa.progress = none → exec .objectFrameTake s = .next { base with sa := { s.sa with stats := stats } })
      ∧ (s.sa.progress ≠ none → exec .objectFrameTake s = .next (torn stats)))
    ∧ ∀ o, parseObject f.payload = some o → o.index ≠ 0 →
      (s.sa.progress = none → exec .objectFrameTake s
        = .next { base with sa := { s.sa with stats := bumpAt Stat.objFramesOrphan taken } })
      ∧ ∀ p, s.sa.progress = some p → (p.number ≠ o.number ∨ p.expected ≠ o.index) →
        exec .objectFrameTake s
          = .next { torn taken with sa := { (torn taken).sa with
              stats := bumpAt Stat.objFramesOrphan (torn taken).sa.stats } }

/-- R25, R26 and R22: what is done to SA before the reports are taken, and that they are taken. -/
def Obligations.ObjectFramesThatOpenOrContinueAScene : Prop :=
  ∀ (s : State) (f : UpFrame) (rest : List UpFrame) (o : ObjectFrame), s.inReset = false → s.sa.handover = false →
    s.up.objectQ = f :: rest → parseObject f.payload = some o →
    let base := { s with up := { s.up with objectQ := rest } }
    let taken := bumpAt Stat.objFramesTaken s.sa.stats
    let finish (t : State) : State :=
      let u := { t with sa := o.reports.foldl takeReport t.sa }
      if o.last then countCheck o.announced u else u
    (o.index = 0 → s.sa.progress = none → exec .objectFrameTake s = .next (finish { base with sa := { s.sa with
        progress := some ⟨o.number, 1, 0, 0, false⟩, buffer := [], stats := taken } }))
    ∧ (o.index = 0 → s.sa.progress ≠ none → exec .objectFrameTake s = .next (finish { base with
        sa := { s.sa with
          progress := some ⟨o.number, 1, 0, 0, false⟩, buffer := [], stats := bumpAt Stat.scenesTorn taken }
        mail := { s.mail with events := s.mail.events ++ [.sceneTorn] } }))
    ∧ ∀ p, s.sa.progress = some p → p.number = o.number → p.expected = o.index → o.index ≠ 0 →
      exec .objectFrameTake s = .next (finish { base with sa := { s.sa with
        progress := some { p with expected := p.expected + 1 }, stats := taken } })

/-- R24 with R179 and section 11.2, R27, case by case, and R22 for their order. -/
def Obligations.ReportsAreKeptDroppedOrCounted : Prop :=
  (∀ (bs : List Byte) (i : Nat) (r : Report), parseReport bs i = some r
      ↔ ReportInRange r ∧ (List.range 8).foldl (fun n k => n * 256 + u8 bs (i + k)) 0 = reportNumber r)
    ∧ (∀ (o : ObjectFrame) (s : State), takeReports o s =
      let t := { s with sa := o.reports.foldl takeReport s.sa }
      if o.last then countCheck o.announced t else t)
    ∧ ∀ (sa : Sa) (p : SceneProgress) (r : Report), sa.progress = some p →
    takeReport sa none = { sa with stats := bumpAt Stat.reportsInvalid sa.stats }
    ∧ ((∃ b ∈ sa.buffer, b.id = r.id ∧ b.cls = r.cls) →
      takeReport sa (some r) = { sa with stats := bumpAt Stat.reportsDuplicate sa.stats })
    ∧ ((¬∃ b ∈ sa.buffer, b.id = r.id ∧ b.cls = r.cls) → sa.buffer.length < 32 →
      takeReport sa (some r)
        = { sa with buffer := sa.buffer ++ [r], progress := some { p with kept := p.kept + 1 } })
    ∧ ((¬∃ b ∈ sa.buffer, b.id = r.id ∧ b.cls = r.cls) → 32 ≤ sa.buffer.length →
      takeReport sa (some r)
        = { sa with
            progress := some { p with overflow := p.overflow + 1, truncated := true }
            stats := bumpAt Stat.reportsOverflow sa.stats })

/-- R28, R29, R30 and R32. -/
def Obligations.CountCheckCompletesOrTears : Prop :=
  ∀ (s : State) (p : SceneProgress) (announced : Nat), s.sa.progress = some p →
    (p.kept + p.overflow ≠ announced → countCheck announced s = { s with
      sa := { s.sa with progress := none, buffer := [], stats := bumpAt Stat.scenesTorn s.sa.stats }
      mail := { s.mail with events := s.mail.events ++ [.sceneTorn] } })
    ∧ (p.kept + p.overflow = announced →
      let one := bumpAt Stat.scenesTaken s.sa.stats
      let two := if p.truncated then bumpAt Stat.scenesTruncated one else one
      let three := match s.sa.lastScene with
        | none => two
        | some n => if p.number = n + 1 then two else bumpAt Stat.sceneGaps two
      countCheck announced s = { s with
        sa := { progress := none, buffer := [], lastScene := some p.number
                timer := timerIn s s.mu.tables.link.sceneTimeout, stale := false, handover := true, stats := three }
        mail := { s.mail with
          levels := s.mail.levels ++ if s.sa.stale then [⟨.perceptionStale, none, false⟩] else []
          toTu := s.mail.toTu ++ [.scene ⟨p.number, s.sa.buffer, p.truncated⟩] } })

/-- R31 at expiry; R33 with R30. -/
def Obligations.SceneTimerExpiryAndOutsideTears : Prop :=
  ∀ s : State, s.inReset = false →
    (due s.now s.sa.timer = true → exec .sceneTimerExpiry s = .next { s with
      sa := { s.sa with timer := none, stale := true, stats := bumpAt Stat.sceneTimeouts s.sa.stats }
      mail := { s.mail with
        levels := s.mail.levels ++ [⟨.perceptionStale, none, true⟩], toTu := s.mail.toTu ++ [.aging] } })
    ∧ ∀ cause, cause ∈ s.mail.tears →
      let base := { s with mail := { s.mail with tears := s.mail.tears.erase cause } }
      (s.sa.progress = none → exec (.externalSceneTear cause) s = .next base)
      ∧ (s.sa.progress ≠ none → exec (.externalSceneTear cause) s = .next { base with
        sa := { s.sa with progress := none, buffer := [], stats := bumpAt Stat.scenesTorn s.sa.stats }
        mail := { base.mail with events := s.mail.events ++ [.sceneTorn] } })

/-- R39, R47, R53 and the scene latch of R65. -/
def Obligations.SceneTakeAssociatesWholeAndTriggers : Prop :=
  ∀ (s : State) (scene : Scene) (rest : List ToTu), s.inReset = false → s.mail.toTu = .scene scene :: rest →
    let r : AssocRules := ⟨s.mu.tables.classPolicy, s.mu.tables.segMap, scene.number, s.now⟩
    let strong := scene.reports.filter fun x => decide ((policyOf r.policy x.cls).minConfidence ≤ x.confidence)
    let weak := scene.reports.length - strong.length
    let start : Assoc := ⟨s.tu.tracks, Row.fill 24 false, s.tu.stats.modify Stat.trkLowConfidence bump^[weak], false⟩
    let one := strong.foldl (passOne r) ([], start)
    let two := one.1.foldl (passTwo r) ([], one.2)
    let three := two.1.foldl (passThree r) two.2
    let a := allTracks.foldl (settleEntry r scene.truncated) three
    exec .sceneTake s = .next (trigger { s with
      tu := ⟨a.tracks, bumpAt Stat.trkScenes a.stats⟩
      sa := { s.sa with handover := false }
      pb := { s.pb with latch := some scene.number }
      mail := { s.mail with
        toTu := rest, events := if a.dropped then s.mail.events ++ [.trackTableFull] else s.mail.events } })

/-- R41, R42 and R43. The lamp field is said in doubled angles, so that half pitches stay whole. -/
def Obligations.MatchUpdatesOrFreesTheTrack : Prop :=
  (∀ (r : AssocRules) (left : List Report) (a : Assoc) (x : Report),
    ((∀ n t, a.tracks.get n = some t → ¬(t.id = x.id ∧ t.cls = x.cls)) → passOne r (left, a) x = (left ++ [x], a))
    ∧ ∀ n t, a.tracks.get n = some t → t.id = x.id → t.cls = x.cls →
      (∀ m u, a.tracks.get m = some u → u.id = x.id → u.cls = x.cls → m = n) →
      (whollyOutside r.segMap x.left x.right = true → passOne r (left, a) x = (left, { a with
        tracks := a.tracks.set n none, matched := a.matched.set n false
        stats := bumpAt Stat.trkIdMatches (bumpAt Stat.trkExits a.stats) }))
      ∧ (whollyOutside r.segMap x.left x.right = false → passOne r (left, a) x = (left, { a with
        tracks := a.tracks.set n (some { t with
          left := x.left, right := x.right, upper := x.upper, lower := x.lower, distance := x.distance, id := x.id
          hits := min 15 (t.hits + 1), hold := none, lastScene := r.scene
          state := if t.state = .coasting then .confirmed else t.state })
        matched := a.matched.set n true
        stats := bumpAt Stat.trkIdMatches a.stats })))
    ∧ ∀ (m : Both SegMapEntry) (left right : Int), whollyOutside m left right = true
      ↔ (∀ l, 2 * right < 2 * (m.get l).origin - (m.get l).columnPitch)
        ∨ ∀ l, 2 * (m.get l).origin + 47 * (m.get l).columnPitch ≤ 2 * left

/-- R44, with R42 and R43 for the match. `whollyOutside` is R43's test, pinned by MatchUpdatesOrFreesTheTrack. -/
def Obligations.OverlapMatchIsWidestThenLowest : Prop :=
  ∀ (r : AssocRules) (x : Report) (a : Assoc),
    let width (t : Track) : Int :=
      min (x.right + (policyOf r.policy x.cls).gate) t.right - max (x.left - (policyOf r.policy x.cls).gate) t.left
    let candidate (n : TrackNo) (t : Track) : Prop :=
      a.tracks.get n = some t ∧ t.cls = x.cls ∧ a.matched.get n = false ∧ 0 < width t
    (bestOverlap r x a = none ↔ ∀ n t, ¬candidate n t)
    ∧ (bestOverlap r x a = none → ∀ left, passTwo r (left, a) x = (left ++ [x], a))
    ∧ ∀ n t w, bestOverlap r x a = some (n, t, w) →
      candidate n t ∧ w = width t
        ∧ (∀ m u, candidate m u → width u < width t ∨ (width u = width t ∧ n ≤ m))
        ∧ ∀ left : List Report,
          (whollyOutside r.segMap x.left x.right = true → passTwo r (left, a) x = (left, { a with
            tracks := a.tracks.set n none, matched := a.matched.set n false
            stats := bumpAt Stat.trkOverlapMatches (bumpAt Stat.trkExits a.stats) }))
          ∧ (whollyOutside r.segMap x.left x.right = false → passTwo r (left, a) x = (left, { a with
            tracks := a.tracks.set n (some { t with
              left := x.left, right := x.right, upper := x.upper, lower := x.lower, distance := x.distance
              id := x.id, hits := min 15 (t.hits + 1), hold := none, lastScene := r.scene
              state := if t.state = .coasting then .confirmed else t.state })
            matched := a.matched.set n true
            stats := bumpAt Stat.trkOverlapMatches a.stats }))

/-- R45, R46 and R47. `whollyOutside` is R43's test, pinned by MatchUpdatesOrFreesTheTrack. -/
def Obligations.LeftoverReportsMakeTracks : Prop :=
  ∀ (r : AssocRules) (a : Assoc) (x : Report),
    let prio (c : ObjClass) : Nat := (policyOf r.policy c).priority
    let made : Track :=
      { state := .tentative, cls := x.cls, id := x.id, left := x.left, right := x.right, upper := x.upper
        lower := x.lower, distance := x.distance, hits := 1, hold := none, lastScene := r.scene }
    let victim (n : TrackNo) (t : Track) : Prop :=
      a.tracks.get n = some t ∧ t.state = .tentative ∧ prio t.cls < prio x.cls
    (whollyOutside r.segMap x.left x.right = true →
      passThree r a x = { a with stats := bumpAt Stat.trkOutsideIgnored a.stats })
    ∧ (whollyOutside r.segMap x.left x.right = false →
      (∀ n, a.tracks.get n = none → (∀ m, a.tracks.get m = none → n ≤ m) →
        passThree r a x = { a with
          tracks := a.tracks.set n (some made), matched := a.matched.set n true
          stats := bumpAt Stat.trkCreated a.stats })
      ∧ ((∀ n, a.tracks.get n ≠ none) →
        (∀ n t, victim n t →
          (∀ m u, victim m u → prio t.cls < prio u.cls ∨ (prio t.cls = prio u.cls ∧ n ≤ m)) →
          passThree r a x = { a with
            tracks := a.tracks.set n (some made), matched := a.matched.set n true
            stats := bumpAt Stat.trkReplaced a.stats })
        ∧ ((∀ n t, ¬victim n t) →
          passThree r a x = { a with dropped := true, stats := bumpAt Stat.trkDroppedFull a.stats })))

/-- R48 to R52, entry by entry. The counters are those of R48 to R50 and R60. -/
def Obligations.SettlingTreatsEachTrackByItsState : Prop :=
  ∀ (r : AssocRules) (truncated : Bool) (a : Assoc),
    let t := allTracks.foldl (settleEntry r truncated) a
    let count (p : TrackNo → Track → Bool) : Nat := (List.finRange 24).countP fun n => (a.tracks.get n).any (p n)
    let confirmed := count fun n x => a.matched.get n && decide (x.state = .tentative)
      && decide ((policyOf r.policy x.cls).confirmScenes ≤ x.hits)
    let lost := count fun n x => !truncated && !a.matched.get n && decide (x.state = .tentative)
    let out := count fun n x => !truncated && !a.matched.get n && decide (x.state = .confirmed)
      && decide ((policyOf r.policy x.cls).holdTime = 0)
    (∀ n, t.tracks.get n = (a.tracks.get n).bind (settledTrack r truncated (a.matched.get n)))
    ∧ (∀ j, t.stats.get j =
        if j = Stat.trkConfirms then bump^[confirmed] (a.stats.get j)
        else if j = Stat.trkTentativeLost then bump^[lost] (a.stats.get j)
        else if j = Stat.trkHoldExpiries then bump^[out] (a.stats.get j)
        else a.stats.get j)
    ∧ t.matched = a.matched ∧ t.dropped = a.dropped

/-- R54 at expiry; R56, entry by entry, with the counters and the frame. That a track freed by the scene-timeout
changes at hold time 0 counts in TRK_HOLD_EXPIRIES is assumption 33. -/
def Obligations.HoldExpiryAndSceneTimeoutChanges : Prop :=
  (∀ (s : State) (n : TrackNo) (t : Track), s.inReset = false → s.tu.tracks.get n = some t →
      due s.now t.hold = true →
      exec (.holdTimerExpiry n) s = .next (trigger { s with
        tu := ⟨s.tu.tracks.set n none, bumpAt Stat.trkHoldExpiries s.tu.stats⟩ }))
    ∧ ∀ s : State, s.inReset = false → .aging ∈ s.mail.toTu →
    let lost := allTracks.countP fun n => (s.tu.tracks.get n).any fun t => decide (t.state = .tentative)
    let out := allTracks.countP fun n => (s.tu.tracks.get n).any fun t =>
      decide (t.state = .confirmed) && decide ((policyOf s.mu.tables.classPolicy t.cls).holdTime = 0)
    ∃ t, exec .sceneTimeoutAging s = .next t
      ∧ (∀ n, t.tu.tracks.get n = (s.tu.tracks.get n).bind (agedTrack s))
      ∧ (∀ j, t.tu.stats.get j =
          if j = Stat.trkStaleAgings then bump (s.tu.stats.get j)
          else if j = Stat.trkTentativeLost then bump^[lost] (s.tu.stats.get j)
          else if j = Stat.trkHoldExpiries then bump^[out] (s.tu.stats.get j)
          else s.tu.stats.get j)
      ∧ t = { s with tu := t.tu, mail := { s.mail with toTu := s.mail.toTu.erase .aging } }

/-- R61, R63, R64 and R65. -/
def Obligations.BuildTriggerStartsOrMerges : Prop :=
  ∀ s : State,
    (s.pb.build ≠ none → trigger s = { s with
      pb := { s.pb with rebuild := true, stats := bumpAt Stat.pbTriggersMerged s.pb.stats } })
    ∧ (s.pb.build = none → s.mu.commitPending = false → trigger s = { s with pb := { s.pb with
        build := some (inputsOf s.vsb s.tu s.links s.cm s.mu s.pb), latch := none
        refresh := timerIn s s.mu.tables.link.buildPeriod, stats := bumpAt Stat.pbBuilds s.pb.stats } })
    ∧ (s.pb.build = none → s.mu.commitPending = true →
      let t := trigger s
      let mu := { s.mu with
        tables := overlay s.mu.staged s.mu.tables, staged := emptyStaging, commitPending := false }
      let stats := bumpAt Stat.pbCommitsTaken s.pb.stats
      t.mu = mu ∧ t.pb = { s.pb with
          build := some { inputsOf s.vsb s.tu s.links s.cm mu s.pb with latch := s.pb.latch }, latch := none
          refresh := timerIn s s.mu.tables.link.buildPeriod, stats := bumpAt Stat.pbBuilds stats }
        ∧ t.mail.vehicleParams = s.mail.vehicleParams + s.mu.staged.vehicle.isSome.toNat
        ∧ t.mail.classPolicy = s.mail.classPolicy + s.mu.staged.classPolicy.isSome.toNat
        ∧ t.mail.condTable.length = s.mail.condTable.length + s.mu.staged.condition.isSome.toNat)
    ∧ OnlyBuild s (trigger s)
    ∧ ∀ (v : Vsb) (tu : Tu) (links : Both Slc) (cm : Cm) (mu : Mu) (pb : Pb),
      let b := inputsOf v tu links cm mu pb
      b.speed = ⟨v.speed.value, v.speed.fresh⟩ ∧ b.steer = ⟨v.steer.value, v.steer.fresh⟩
      ∧ b.pitch = ⟨v.pitch.value, v.pitch.fresh⟩ ∧ b.request = ⟨v.request.value, v.request.fresh⟩
      ∧ b.road = ⟨v.road.value, v.road.fresh⟩ ∧ b.weather = ⟨v.weather.value, v.weather.fresh⟩
      ∧ b.tracks = tu.tracks
      ∧ (∀ l k, let m := (links.get l).modules.get k
        (b.modules.get l).get k = ⟨m.state, m.band, m.failed, m.treatedAbsent⟩)
      ∧ b.action = cm.action ∧ b.config = mu.config ∧ b.holdLow = mu.holdLow ∧ b.tables = mu.tables
      ∧ b.mode = pb.mode ∧ b.swivel = pb.swivel ∧ b.rowShift = pb.rowShift ∧ b.previous = pb.previous
      ∧ b.latch = pb.latch

/-- R63, R66, R98, R99 and R100. That a completion with no build in flight changes nothing is assumption 2. -/
def Obligations.BuildRefreshAndCompletion : Prop :=
  ∀ s : State, s.inReset = false →
    (due s.now s.pb.refresh = true → exec .buildRefreshTimerExpiry s
      = .next (trigger { s with pb := { s.pb with refresh := none } }))
    ∧ (s.pb.build = none → exec .buildCompletion s = .next s)
    ∧ ∀ b, s.pb.build = some b →
      let p := planOf b
      let levels := finalLevels b p
      let t := { s with
        pb := { s.pb with
          build := none, rebuild := false, mode := p.mode, swivel := p.swivel, rowShift := p.rowShift
          previous := levels, generation := s.pb.generation + 1
          stats := if p.mode = s.pb.mode then s.pb.stats else bumpAt Stat.pbModeChanges s.pb.stats }
        mail := { s.mail with records := s.mail.records
          ++ [⟨s.pb.generation + 1, p.mode, p.swivel, p.rowShift, b.latch, levels⟩] } }
      exec .buildCompletion s = .next (if s.pb.rebuild then trigger t else t)

/-- R67 and R68 with the speed tests of R69, in order. -/
def Obligations.ModeIsTheFirstTestThatHolds : Prop :=
  (∀ b : BuildInputs,
    let request := if b.request.fresh then b.request.value.getD .low else .low
    let t := b.tables.mode
    let weather := if b.weather.fresh then b.weather.value.getD 0 else 0
    let urban : Prop := b.road.fresh = true ∧ b.road.value = some .urban
    let motorwayRoad : Prop := b.road.fresh = true ∧ b.road.value = some .motorway
    let slow : Prop := b.speed.fresh = true ∧ ∃ v, b.speed.value = some v ∧
      v < (if b.mode = .town then t.townSpeed + t.hysteresis else t.townSpeed)
    let fast : Prop := b.speed.fresh = true ∧ ∃ v, b.speed.value = some v ∧
      (if b.mode = .motorway then t.motorwaySpeed - t.hysteresis else t.motorwaySpeed) ≤ v
    (b.config = .config → chooseMode b = if request = .off then .off else .fallback)
    ∧ (b.config = .run →
      (request = .off → chooseMode b = .off)
      ∧ (request ≠ .off → b.action = .fallback → chooseMode b = .fallback)
      ∧ (request ≠ .off → b.action ≠ .fallback →
        (b.holdLow = true ∨ b.action = .lowOnly ∨ request = .low → chooseMode b = .low)
        ∧ (b.holdLow = false → b.action ≠ .lowOnly →
          (request = .flash ∨ request = .full → chooseMode b = .full)
          ∧ (request = .highAuto →
            (t.adverseThreshold ≤ weather → chooseMode b = .adverse)
            ∧ (weather < t.adverseThreshold →
              (urban ∨ t.townThreshold ≤ b.streetlights ∨ slow → chooseMode b = .town)
              ∧ (¬(urban ∨ t.townThreshold ≤ b.streetlights ∨ slow) →
                (motorwayRoad ∧ fast → chooseMode b = .motorway)
                ∧ (¬(motorwayRoad ∧ fast) → chooseMode b = .country))))))))
    ∧ ∀ (v : Vsb) (tu : Tu) (links : Both Slc) (cm : Cm) (mu : Mu) (pb : Pb),
      let b := inputsOf v tu links cm mu pb
      b.mode = pb.mode ∧ b.streetlights = (List.finRange 24).countP fun n =>
        (tu.tracks.get n).any fun t => decide (t.state = .confirmed) && decide (t.cls = .streetlight)

/-- R75 and R92, with what they work on: R70 and R72 (base), R73 and R74 (target swivel), R76 to R78 (column shift,
row shift, edges). The rounding is pinned by PinSpeedAndAngleRound. -/
def Obligations.RampAndSwivelMoveByAtMostTheirStep : Prop :=
  (∀ (step : Nat) (current target : Int),
      (|target - current| ≤ step → moveSwivel step current target = target)
      ∧ (step < target - current → moveSwivel step current target = current + step)
      ∧ (step < current - target → moveSwivel step current target = current - step))
    ∧ (∀ b : BuildInputs, (planOf b).swivel
        = moveSwivel b.tables.build.swivelStep b.swivel (targetSwivel b (chooseMode b)))
    ∧ (∀ (b : BuildInputs) (l : Link) (i : SegNo),
      let p := planOf b
      let before := (b.previous.get l).get i
      let level := targetLevel b p l i
      let up := b.tables.build.upStep
      let down := b.tables.build.downStep
      (before + up < level → rampedLevel b p l i = before + up)
      ∧ (level + down < before → rampedLevel b p l i = before - down)
      ∧ (level ≤ before + up → before ≤ level + down → rampedLevel b p l i = level)
      ∧ ((finalLevels b p).get l).get i ≤ before + up)
    ∧ (∀ (b : BuildInputs) (m : Mode),
      b.steer.fresh = false ∨ m = .off ∨ m = .fallback → targetSwivel b m = 0)
    ∧ (∀ (s : State) (b : BuildInputs), s.inReset = false → s.pb.build = some b →
      ∃ t, exec .buildCompletion s = .next t ∧ t.pb.swivel = (planOf b).swivel
        ∧ t.pb.previous = finalLevels b (planOf b))
    ∧ (∀ (s : State) (f : UpFrame), s.inReset = false → s.up.tx = some ⟨.reply true, f⟩ → s.mu.restartPending = true →
      ∃ t, exec .upstreamTxComplete s = .next t ∧ t.pb.swivel = 0 ∧ ∀ l i, (t.pb.previous.get l).get i = 0)
    ∧ State.reset.pb.swivel = 0 ∧ (∀ l i, (State.reset.pb.previous.get l).get i = 0)
    ∧ (∀ b : BuildInputs,
      let p := planOf b
      let t := b.tables.mode
      let row : ModeRow := match p.mode with
        | .off | .fallback => ⟨0, false⟩
        | .low => t.low
        | .town => t.town
        | .country => t.country
        | .motorway => t.motorway
        | .adverse => t.adverse
        | .full => t.full
      p.mode = chooseMode b ∧ p.profile = b.tables.profile.get row.profile)
    ∧ (∀ (b : BuildInputs) (m : Mode) (a : Int), b.steer = ⟨some a, true⟩ → m ≠ .off → m ≠ .fallback →
      let c := b.tables.curve
      0 < c.b1 → c.b1 < c.b2 → c.b2 < c.b3 → c.b3 < c.b4 →
      let point (k : Nat) : Int := [-(c.b4 : Int), -c.b3, -c.b2, -c.b1, 0, c.b1, c.b2, c.b3, c.b4].getD k 0
      ∀ band : Fin 8,
        (b.speed.fresh = false → band = 0) →
        (∀ v, b.speed = ⟨some v, true⟩ →
          (v ≤ (c.bands.get band).bound ∨ (band = 7 ∧ ∀ j, (c.bands.get j).bound < v))
            ∧ ∀ j < band, (c.bands.get j).bound < v) →
        (b.speed.fresh = true → b.speed.value ≠ none) →
        let value (k : Nat) : Int := (c.bands.get band).values.cells.getD k 0
        (a ≤ point 0 → targetSwivel b m = value 0)
        ∧ (point 8 ≤ a → targetSwivel b m = value 8)
        ∧ ∀ k < 8, point k ≤ a → a ≤ point (k + 1) → targetSwivel b m
          = roundDiv (value k * (point (k + 1) - point k) + (value (k + 1) - value k) * (a - point k))
              (point (k + 1) - point k).toNat)
    ∧ (∀ (p : Plan) (pitch : Nat) (l : Link) (i : SegNo),
      let column : Int := (i.val % 24 : Nat) - roundDiv p.swivel pitch
      let row : Int := (i.val / 24 : Nat) + p.rowShift
      ∀ (r : Fin 4) (c : Fin 24),
        (p.profile.edge = .hold ∨ (row = r.val ∧ column = c.val) →
          r.val = max 0 (min 3 row) → c.val = max 0 (min 23 column) →
          levelled p pitch l i = ((p.profile.levels.get l).get r).get c)
        ∧ (p.profile.edge = .dark → row < 0 ∨ 3 < row ∨ column < 0 ∨ 23 < column → levelled p pitch l i = 0))
    ∧ ∀ (b : BuildInputs) (m : Mode),
      let pitch := max b.tables.segMap.left.rowPitch b.tables.segMap.right.rowPitch
      (b.pitch.fresh = false ∨ b.pitch.value = none ∨ m = .off ∨ m = .fallback → rowShiftOf b m = 0)
      ∧ (∀ x, b.pitch = ⟨some x, true⟩ → m ≠ .off → m ≠ .fallback →
        rowShiftOf b m = max (-1) (min 1 (-roundDiv x pitch)))
      ∧ (planOf b).rowShift = rowShiftOf b (planOf b).mode

/-- R81 to R90 and R93 to R97, over every track of the build's inputs. R89's windows are pinned by LinksStayAwake
(windowSegment). A slot a load has marked not present has no window (R101, assumption 8). -/
def Obligations.FinalLevelsObeyEveryHardLimit : Prop :=
  (∀ (g : SegMapEntry) (x : AngleBox) (i : SegNo),
      let centre : Int := g.origin + (i.val % 24 * g.columnPitch : Nat)
      let height : Int := g.rowCentre - (i.val / 24 * g.rowPitch : Nat)
      covers g x i = true ↔ 2 * x.left < 2 * centre + g.columnPitch ∧ 2 * centre - g.columnPitch ≤ 2 * x.right
        ∧ 2 * height - g.rowPitch ≤ 2 * x.upper ∧ ∀ y ∈ x.lower, 2 * y < 2 * height + g.rowPitch)
    ∧ (∀ (policy : Row 6 ClassPolicy) (m : MarginTable) (t : Track),
      let p := policyOf policy t.cls
      let box (extra : Nat) : AngleBox :=
        ⟨t.left - (p.marginLeft + extra), t.right + (p.marginRight + extra), t.upper + p.marginTop, t.lower⟩
      (t.distance = none → shadowBox policy m t = box m.absentExtra)
      ∧ ∀ d, t.distance = some d →
        (∀ k, d ≤ (m.bands.get k).bound → (∀ j < k, (m.bands.get j).bound < d) →
          shadowBox policy m t = box (m.bands.get k).extra)
        ∧ ((∀ k, (m.bands.get k).bound < d) → shadowBox policy m t = box (m.bands.get 3).extra))
    ∧ ∀ (b : BuildInputs) (l : Link) (i : SegNo),
    let p := planOf b
    let g := b.tables.segMap.get l
    let high : Prop := g.high.get i = true
    let level := ((finalLevels b p).get l).get i
    let shadow (hard : Bool) (x : Nat) : Prop := (modeRow b.tables.mode (chooseMode b)).shadowsApply = true ∧
      ∃ n t, b.tracks.get n = some t ∧
        let policy := policyOf b.tables.classPolicy t.cls
        (t.state = .confirmed ∨ t.state = .coasting ∨ (t.state = .tentative ∧ policy.shadowTentative = true))
        ∧ policy.hard = hard ∧ covers g (shadowBox b.tables.classPolicy b.tables.margin t) i = true
        ∧ x = policy.shadowLevel
    let base := levelled p g.columnPitch l i
    let soft := shade g p.soft i base
    let window (k : Fin 4) (x : Nat) : Nat := applyWindow g p.mode l i x (b.tables.window.get k)
    let slot (k : Slot) : ModuleEntry := (b.tables.modules.get l).get k
    let view (k : Slot) : ModuleView := (b.modules.get l).get k
    let fitted (k : Slot) : Prop := (slot k).present = true ∧ (view k).treatedAbsent = false
    let holds (k : Slot) : Prop :=
      (slot k).firstRow ≤ i.val / 24 ∧ i.val / 24 < (slot k).firstRow + (slot k).rowCount
      ∧ (slot k).firstColumn ≤ i.val % 24 ∧ i.val % 24 < (slot k).firstColumn + (slot k).columnCount
    let failed : Prop := ∃ k n, fitted k ∧ n ∈ (view k).failed ∧ windowSegment (slot k) n = some i
    (¬high → soft = base)
    ∧ (high → soft ≤ base ∧ (∀ x, shadow false x → soft ≤ x) ∧ (soft = base ∨ shadow false soft))
    ∧ (∀ (x : Nat) (w : FixedWindow),
      let acts : Prop := w.modes.getLsbD (modeNo p.mode).val = true
        ∧ (w.lamp = .both ∨ (w.lamp = .left ∧ l = .left) ∨ (w.lamp = .right ∧ l = .right))
        ∧ covers g ⟨w.left, w.right, w.upper, some w.lower⟩ i = true
      (¬acts → applyWindow g p.mode l i x w = x)
      ∧ (acts → w.kind = .cap → applyWindow g p.mode l i x w = min x w.level)
      ∧ (acts → w.kind = .floor → applyWindow g p.mode l i x w = if g.high.get i then x else max x w.level))
    ∧ targetLevel b p l i
      = min (window 3 (window 2 (window 1 (window 0 soft)))) (b.tables.derate.get (derateBand b l i))
    ∧ ((∀ k, fitted k → ¬holds k) → derateBand b l i = 0)
    ∧ (∀ k, fitted k → holds k → (∀ j < k, fitted j → ¬holds j) → (view k).band ≤ 7 →
      (derateBand b l i).val = (view k).band)
    ∧ level ≤ rampedLevel b p l i
    ∧ (p.mode = .off → level = 0)
    ∧ (p.mode = .low ∨ p.mode = .fallback → high → level = 0)
    ∧ (high → ∀ x, shadow true x → level ≤ x)
    ∧ (b.action = .dim → high → level ≤ b.tables.build.dimLevel)
    ∧ (failed → level = 0)
    ∧ (level = rampedLevel b p l i ∨ (level = 0 ∧ (p.mode = .off ∨ failed))
      ∨ (high ∧ ((level = 0 ∧ (p.mode = .low ∨ p.mode = .fallback)) ∨ shadow true level
        ∨ (b.action = .dim ∧ level = b.tables.build.dimLevel))))

/-- R104, R120 and R160. Which bytes are an error, rejected or good is FramesDecodeFromTheirWire. Up to 1023 a PASS_UP
keeps its module's code; above that `passUpCode` is the free value of assumption 20. -/
def Obligations.LinkFramesAreClassedAndHandedOn : Prop :=
  (∀ (s : State) (l : Link) (bytes : List Byte), s.inReset = false →
    let c := s.links.get l
    (linkArrival bytes = .error → exec (.linkFrameReceive l bytes) s
      = .next { s with links := s.links.set l { c with stats := bumpAt Stat.lnkRxErrors c.stats } })
    ∧ (linkArrival bytes = .rejected
        ∨ (∃ f, linkArrival bytes = .good f ∧ effState (c.modules.get (frameSlot f)) = .absent) →
      exec (.linkFrameReceive l bytes) s
        = .next { s with links := s.links.set l { c with stats := bumpAt Stat.lnkRxRejected c.stats } })
    ∧ ∀ f, linkArrival bytes = .good f → effState (c.modules.get (frameSlot f)) ≠ .absent →
      let heard := { c with
        modules := c.modules.set (frameSlot f) { c.modules.get (frameSlot f) with misses := 0 }
        stats := bumpAt Stat.lnkRxFrames c.stats }
      (∀ k gen, f = .blockAck k gen → exec (.linkFrameReceive l bytes) s = .next { s with
        links := s.links.set l heard, mail := { s.mail with acks := s.mail.acks ++ [⟨l, k, gen⟩] } })
      ∧ ∀ k code payload, f = .passUp k code payload →
        let t := { s with
          links := s.links.set l { heard with stats := bumpAt Stat.lnkPassUp heard.stats } }
        (s.up.passUpQ.length < 8 → exec (.linkFrameReceive l bytes) s = .next { t with
          up := upStartUp s.mu.strap { s.up with passUpQ := s.up.passUpQ ++ [⟨passUpCode code, payload⟩] } })
        ∧ (8 ≤ s.up.passUpQ.length → exec (.linkFrameReceive l bytes) s = .next { t with
          up := { s.up with stats := bumpAt Stat.upPassUpDropped s.up.stats } }))
    ∧ ∀ code : Nat, code ≤ 1023 → (passUpCode code).toNat = code

/-- R107 with R104; `reportLink` is the re-evaluation of R112. It is spelled out here for every statement that names
it; the four values are those of LinksStayAwake. -/
def Obligations.StatusUpdatesTheModule : Prop :=
  (∀ (s : State) (l : Link) (bytes : List Byte) (k : Slot) (band : Nat) (sf : Bool) (failed : List Nat),
    s.inReset = false → linkArrival bytes = .good (.status k band sf failed) →
    let c := s.links.get l
    let m := c.modules.get k
    effState m ≠ .absent →
    let after : ModuleState :=
      match m.state with
      | .absent => .absent
      | .joining => if (m.outstanding.map Prod.fst) = some .join then .active else .joining
      | .active => .active
      | .broken => if s.mu.isolation then .broken else .active
    let joined : Prop := m.state ≠ .active ∧ after = .active
    let one := bumpAt Stat.lnkStatusTaken (bumpAt Stat.lnkRxFrames c.stats)
    let t := { s with links := s.links.set l { c with
      modules := c.modules.set k
        { m with
          state := after, misses := 0, band := band, selfFallback := sf, failed := failed, outstanding := none }
      stats := if joined then bumpAt Stat.lnkJoins one else one } }
    exec (.linkFrameReceive l bytes) s
      = .next (reportLink l (if m.band ≠ band ∨ m.failed ≠ failed then trigger t else t)))
    ∧ ∀ (l : Link) (s : State),
      let c := s.links.get l
      let raws := linkRaws s.mu.tables l c.modules
      let reports : List LevelReport :=
        changed .moduleBroken (some l) c.sent.broken raws.broken
          ++ changed .moduleSelfFallback (some l) c.sent.selfFallback raws.selfFallback
          ++ changed .segmentFailed (some l) c.sent.segFailed raws.segFailed
          ++ changed .overtemp (some l) c.sent.overtemp raws.overtemp
      reportLink l s = { s with
        links := s.links.set l { c with sent := raws }, mail := { s.mail with levels := s.mail.levels ++ reports } }

/-- R108 and R109. A cut block's completion counts in LNK_BLOCKS_SENT (R113 with R109: assumption 10). A slot that a
load has marked not present is passed over (assumption 8). -/
def Obligations.ReplyTimeoutCountsAMissAndMayBreak : Prop :=
  ∀ (s : State) (l : Link) (k : Slot), s.inReset = false →
    let c := s.links.get l
    let m := c.modules.get k
    due s.now (replyTimer m) = true → effState m ≠ .absent →
    let counted := bumpAt Stat.lnkMisses (bumpAt Stat.lnkReplyTimeouts c.stats)
    let missed := { m with outstanding := none, misses := min 15 (m.misses + 1) }
    let cut (f : LinkFrame) (x : Slc) : Slc := { x with stats := match f with
      | .pattern (.block _ _ _) => bumpAt Stat.lnkBlocksSent (bumpAt Stat.lnkTxCut x.stats)
      | .pattern (.apply _) | .forwarded _ | .join _ _ | .poll _ => bumpAt Stat.lnkTxCut x.stats }
    let breaks : Prop := (m.state = .joining ∨ m.state = .active) ∧ s.mu.tables.link.missLimit ≤ missed.misses
    (¬breaks → exec (.replyTimerExpiry l k) s = .next { s with
      links := s.links.set l { c with modules := c.modules.set k missed, stats := counted } })
    ∧ (breaks →
      let broken := { c with
        modules := c.modules.set k { missed with state := .broken }, stats := bumpAt Stat.lnkBreaks counted }
      let silenced := { broken with
        poll := c.poll.set k none
        patternQ := c.patternQ.filter fun f => match f with | .block j _ _ => decide (j ≠ k) | .apply _ => true }
      let told := { s with mail := { s.mail with broken := s.mail.broken ++ [(l, k)] } }
      (s.mu.isolation = false → exec (.replyTimerExpiry l k) s
        = .next (reportLink l { told with links := s.links.set l broken }))
      ∧ (s.mu.isolation = true → (∀ f q, c.tx = .sending f q → frameAddress f ≠ some k) →
        exec (.replyTimerExpiry l k) s = .next (reportLink l { told with links := s.links.set l silenced }))
      ∧ (s.mu.isolation = true → ∀ f q, c.tx = .sending f q → frameAddress f = some k →
        exec (.replyTimerExpiry l k) s
          = .next (reportLink l (grantNext l { told with links := s.links.set l (cut f silenced) }))))

/-- R106 at the poll timer's expiry; R115 for the waking. -/
def Obligations.PollTimerFillsThePollGroup : Prop :=
  ∀ (s : State) (l : Link), s.inReset = false →
    let c := s.links.get l
    due s.now c.pollTimer = true →
    ∃ poll : Row 4 (Option PollKind),
      (∀ k, poll.get k =
        if (c.poll.get k).isSome ∨ (c.modules.get k).outstanding.isSome then c.poll.get k
        else match effState (c.modules.get k) with
          | .absent => none
          | .joining => some .join
          | .active => some .poll
          | .broken => if s.mu.isolation then none else some .poll)
      ∧ exec (.pollTimerExpiry l) s = .next { s with links := s.links.set l { c with
          poll := poll, pollTimer := timerIn s s.mu.tables.link.pollPeriod
          tx := if c.tx = .idle ∧ (c.patternQ ≠ [] ∨ c.passQ ≠ [] ∨ ∃ k, poll.get k ≠ none) then .waking
                else c.tx } }

/-- R115 to R118. At the wake end R118 decides and insistent pattern does not act (assumption 29); a wake end with no
member requesting goes IDLE and parks (assumption 9). `grantNext` is the grant that the statements on a transmission's
end name. -/
def Obligations.WakeEndGrantsOrParks : Prop :=
  (∀ (s : State) (l : Link), s.inReset = false → (s.links.get l).tx = .waking →
      exec (.wakeSequenceEnd l) s = .next { s with
        links := s.links.set l
          (wakeGrant s.mu.tables.link (s.mu.tables.modules.get l) (s.links.get l)) })
    ∧ (∀ (s : State) (l : Link), grantNext l s = { s with
        links := s.links.set l (nextGrant s.mu.tables.link (s.mu.tables.modules.get l) (s.links.get l)) })
    ∧ ∀ (p : LinkParams) (w : Row 4 ModuleEntry) (c : Slc),
      let before : Member → Member
        | .pattern => .pollGroup
        | .pass => .pattern
        | .pollGroup => .pass
      let parked := { c with
        tx := .idle
        lastGranted := before (match p.parkMode with | .lastMember => c.lastGranted | .defaultMember => p.defaultMember) }
      let noPoll : Prop := ∀ k, c.poll.get k = none
      let sendsPattern (f : PatternFrame) (rest : List PatternFrame) : Slc := { c with
        patternQ := rest, tx := .sending (.pattern f) c.txSeq, txSeq := c.txSeq + 1, lastGranted := .pattern }
      let sendsPass (f : PassFrame) (rest : List PassFrame) : Slc := { c with
        passQ := rest, tx := .sending (.forwarded f) c.txSeq, txSeq := c.txSeq + 1, lastGranted := .pass }
      let sendsPoll (k : Slot) (kind : PollKind) : Slc := { c with
        poll := c.poll.set k none, lastServed := k
        tx := .sending (match kind with | .join => .join k (w.get k) | .poll => .poll k) c.txSeq
        txSeq := c.txSeq + 1, lastGranted := .pollGroup }
      (¬(c.patternQ ≠ [] ∨ c.passQ ≠ [] ∨ ∃ k, c.poll.get k ≠ none) →
        nextGrant p w c = parked ∧ wakeGrant p w c = parked)
      ∧ (∀ f rest, c.patternQ = f :: rest →
          (c.lastGranted = .pass → noPoll) →
          ((c.lastGranted = .pattern → p.insistent = true ∨ (c.passQ = [] ∧ noPoll)) →
            nextGrant p w c = sendsPattern f rest)
          ∧ ((c.lastGranted = .pattern → c.passQ = [] ∧ noPoll) → wakeGrant p w c = sendsPattern f rest))
      ∧ (∀ f rest, c.passQ = f :: rest →
          (c.lastGranted = .pass → c.patternQ = [] ∧ noPoll) →
          (c.lastGranted = .pollGroup → c.patternQ = []) →
          ((c.lastGranted = .pattern → p.insistent = false ∨ c.patternQ = []) → nextGrant p w c = sendsPass f rest)
          ∧ wakeGrant p w c = sendsPass f rest)
      ∧ (∀ k kind, c.poll.get k = some kind →
          (∀ j : Slot, (j - c.lastServed - 1).val < (k - c.lastServed - 1).val → c.poll.get j = none) →
          (c.lastGranted = .pattern → c.passQ = []) →
          (c.lastGranted = .pollGroup → c.patternQ = [] ∧ c.passQ = []) →
          ((c.lastGranted = .pattern → p.insistent = false ∨ c.patternQ = []) → nextGrant p w c = sendsPoll k kind)
          ∧ wakeGrant p w c = sendsPoll k kind)
      ∧ ∀ m : Member, c.lastGranted = before m →
          (match m with | .pattern => c.patternQ ≠ [] | .pass => c.passQ ≠ [] | .pollGroup => ∃ k, c.poll.get k ≠ none) →
          (wakeGrant p w c).lastGranted = m

/-- R106, R113, R114, R129 and R144 within the completion of R115. That the completion, with a delivery's end and the
next delivery's start, comes before the grant is assumption 14. -/
def Obligations.LinkTransmissionsCompleteByKind : Prop :=
  ∀ (s : State) (l : Link) (q : BitVec 4), s.inReset = false →
    let c := s.links.get l
    let counted (i : Fin 13) := { s with links := s.links.set l { c with stats := bumpAt i c.stats } }
    (∀ k g levels, c.tx = .sending (.pattern (.block k g levels)) q →
      exec (.linkTxComplete l) s = .next (grantNext l (counted Stat.lnkBlocksSent)))
    ∧ (∀ f, c.tx = .sending (.forwarded f) q →
      exec (.linkTxComplete l) s = .next (grantNext l (counted Stat.lnkPassSent)))
    ∧ (∀ k kind, (c.tx = .sending (.poll k) q ∧ kind = .poll)
        ∨ (∃ w, c.tx = .sending (.join k w) q) ∧ kind = .join →
      (effState (c.modules.get k) = .absent → exec (.linkTxComplete l) s = .next (grantNext l s))
      ∧ (effState (c.modules.get k) ≠ .absent → exec (.linkTxComplete l) s = .next (grantNext l { s with
          links := s.links.set l { c with modules := c.modules.set k { c.modules.get k with
            outstanding := some (kind, s.now + 1000 * s.mu.tables.link.replyTimeout) } } })))
    ∧ ∀ gen, c.tx = .sending (.pattern (.apply gen)) q →
      let done := s.du.applyDone.set l true
      (∀ g, s.du.delivering = some (g, .applying) → done.left = true → done.right = true →
        exec (.linkTxComplete l) s = .next (grantNext l (endDelivery { s with
          du := { s.du with
            applyDone := done, applied := some (g.number, g.mode), stats := bumpAt Stat.duApplied s.du.stats }
          cm := { s.cm with appliedMode := some g.mode, fbk := decide (g.mode = .fallback) } })))
      ∧ ((s.du.delivering.map Prod.snd ≠ some .applying ∨ done.left = false ∨ done.right = false) →
        exec (.linkTxComplete l) s = .next (grantNext l { s with du := { s.du with applyDone := done } }))

/-- Section 11.1: what the envelope, its check value and the payload layouts carry is what is received; R150's classes
in their order, and R104's errors and rejections with R179. -/
def Obligations.FramesDecodeFromTheirWire : Prop :=
  (∀ f : UpFrame, f.payload.length ≤ 32 → upArrival (upWire f) = .good f)
    ∧ (∀ bs : List Byte,
      let n := u8 bs 2
      let whole : Prop := 3 ≤ bs.length ∧ n ≤ 32 ∧ 3 + n + 2 ≤ bs.length
      let sound : Prop := (bs.drop (3 + n)).take 2 = checkBytes (bs.take (3 + n))
      (bs.length < 3 → upArrival bs = .cut)
      ∧ (3 ≤ bs.length → 32 < n → upArrival bs = .long)
      ∧ (3 ≤ bs.length → n ≤ 32 → bs.length < 3 + n + 2 → upArrival bs = .cut)
      ∧ (whole → ¬sound → upArrival bs = .badCheck)
      ∧ (whole → sound → ∃ f, upArrival bs = .good f ∧ f.code.toNat = 4 * u8 bs 0 + u8 bs 1 / 64
        ∧ f.seq.toNat = u8 bs 1 / 4 % 16 ∧ (f.last = true ↔ u8 bs 1 / 2 % 2 = 1) ∧ f.payload = (bs.drop 3).take n))
    ∧ (∀ bs : List Byte,
      let bits : List Bool := bs.flatMap fun b => (List.range 8).map b.getMsbD
      let divide (c : BitVec 16) (bit : Bool) : BitVec 16 :=
        if c.msb = bit then c <<< 1 else (c <<< 1) ^^^ 0x1021#16
      let check := (bits.foldl divide 65535#16).toNat
      checkBytes bs = [BitVec.ofNat 8 (check / 256), BitVec.ofNat 8 check])
    ∧ (∀ bs : List Byte,
      let words := u8 bs 2
      let kind := u8 bs 0
      let slot := u8 bs 1 / 64
      let error : Prop := bs.length < 3 ∨ 32 < words ∨ bs.length < 3 + 2 * words + 2
        ∨ (bs.drop (3 + 2 * words)).take 2 ≠ checkBytes (bs.take (3 + 2 * words))
      let inner := u8 bs 5
      let fills : Prop := words = (3 + inner + 1) / 2
      (linkArrival bs = .error ↔ error)
      ∧ ∀ f, linkArrival bs = .good f ↔ ¬error ∧ match f with
        | .blockAck k gen => kind = 32 ∧ k.val = slot ∧ words = 1 ∧ gen.toNat = u8 bs 3
        | .status k band flag failed => kind = 33 ∧ k.val = slot ∧ fills ∧ band = u8 bs 3 ∧ band ≤ 7 ∧ u8 bs 4 ≤ 1
          ∧ (flag = true ↔ u8 bs 4 = 1) ∧ inner ≤ 8 ∧ failed = (List.range inner).map (fun j => u8 bs (6 + j))
          ∧ failed.Nodup
        | .passUp k code payload => kind = 34 ∧ k.val = slot ∧ fills ∧ inner ≤ 32
          ∧ code = 256 * u8 bs 3 + u8 bs 4 ∧ payload = (bs.drop 6).take inner)
    ∧ ∀ (k : Slot) (seq : BitVec 4) (last : Bool) (pad : Byte),
      let wire (kind words : Nat) (payload : List Byte) : List Byte :=
        withCheck (envelopeHead (BitVec.ofNat 10 (4 * kind + k.val)) seq last words ++ payload)
      let padded (payload : List Byte) : List Byte := if payload.length % 2 = 0 then payload else payload ++ [pad]
      (∀ gen, linkArrival (wire 32 1 [gen, pad]) = .good (.blockAck k gen))
      ∧ (∀ (band : Nat) (sf : Bool) (failed : List Byte), band ≤ 7 → failed.length ≤ 8 → failed.Nodup →
        let payload := padded (BitVec.ofNat 8 band :: (if sf then 1 else 0) :: BitVec.ofNat 8 failed.length :: failed)
        linkArrival (wire 33 (payload.length / 2) payload) = .good (.status k band sf (failed.map BitVec.toNat)))
      ∧ ∀ (code : Nat) (payload : List Byte), code < 65536 → payload.length ≤ 32 →
        let body := padded (bytes2 code ++ BitVec.ofNat 8 payload.length :: payload)
        linkArrival (wire 34 (body.length / 2) body) = .good (.passUp k code payload)

/-- R123, R124 and R125. The window order is R125's. -/
def Obligations.GenerationsAreDeliveredWaitOrSupersede : Prop :=
  (∀ (s : State) (g : GenRecord) (rest : List GenRecord), s.inReset = false → s.mail.records = g :: rest →
      let base := { s with mail := { s.mail with records := rest } }
      (s.du.delivering = none → exec .generationTake s = .next (startDelivery g base))
      ∧ (s.du.delivering ≠ none → s.du.waiting = none →
        exec .generationTake s = .next { base with du := { s.du with waiting := some g } })
      ∧ (s.du.delivering ≠ none → s.du.waiting ≠ none → exec .generationTake s = .next { base with
          du := { s.du with waiting := some g, stats := bumpAt Stat.duSuperseded s.du.stats } }))
    ∧ (∀ (s : State) (g : GenRecord),
      let active (l : Link) := [(0 : Slot), 1, 2, 3].filter fun k =>
        decide (effState ((s.links.get l).modules.get k) = .active)
      let members := (active .left).map (fun k => (Link.left, k)) ++ (active .right).map fun k => (Link.right, k)
      let blocks (l : Link) : List PatternFrame := (active l).map fun k =>
        .block k g.number ((windowSegments ((s.mu.tables.modules.get l).get k)).map (g.levels.get l).get)
      let queued (l : Link) : Slc :=
        if active l = [] then s.links.get l
        else wakeSlc { s.links.get l with patternQ := (s.links.get l).patternQ ++ blocks l }
      (members = [] → startDelivery g s = { s with
        du := { s.du with
          delivering := none, ackSet := [], applyTimer := none, noModules := true
          stats := bumpAt Stat.duAbandonedEmpty s.du.stats }
        mail := { s.mail with levels := s.mail.levels ++ changed .noModules none s.du.noModules true } })
      ∧ (members ≠ [] → startDelivery g s = { s with
        du := { s.du with
          delivering := some (g, .blocks), ackSet := members, applyTimer := timerIn s s.mu.tables.link.applyTimeout
          applyDone := ⟨false, false⟩, noModules := false, stats := bumpAt Stat.duDeliveries s.du.stats }
        links := ⟨queued .left, queued .right⟩
        mail := { s.mail with levels := s.mail.levels ++ changed .noModules none s.du.noModules false } }))
    ∧ (∀ s : State,
      let empty := { s with du := { s.du with delivering := none, waiting := none, ackSet := [], applyTimer := none } }
      (s.du.waiting = none → endDelivery s = empty)
      ∧ ∀ g, s.du.waiting = some g → endDelivery s = startDelivery g empty)
    ∧ ∀ e : ModuleEntry, e.firstRow + e.rowCount ≤ 4 → e.firstColumn + e.columnCount ≤ 24 →
      (windowSegments e).length = e.rowCount * e.columnCount
      ∧ ∀ (k : Nat) (i : SegNo), (windowSegments e)[k]? = some i ↔ k < e.rowCount * e.columnCount
        ∧ i.val = (e.firstRow + k / e.columnCount) * 24 + (e.firstColumn + k % e.columnCount)

/-- R126, R127 and R128. The ack set empties only in phase BLOCKS: in a state where DeliverySound holds an
acknowledgement in phase APPLYING is unexpected. -/
def Obligations.AcksAndBreaksShrinkTheAckSet : Prop :=
  ∀ (s : State) (l : Link), s.inReset = false → DeliverySound s →
    let leave (g : GenRecord) (k : Slot) (stats : Row 9 Nat) (t : State) : State :=
      let rest := s.du.ackSet.filter fun m => decide (m ≠ (l, k))
      let queued (c : Slc) : Slc := wakeSlc { c with patternQ := c.patternQ ++ [.apply g.number] }
      if rest = [] then { t with
        du := { s.du with ackSet := [], delivering := some (g, .applying), applyTimer := none, stats := stats }
        links := ⟨queued s.links.left, queued s.links.right⟩ }
      else { t with du := { s.du with ackSet := rest, stats := stats } }
    (∀ a, s.mail.acks.find? (fun a => decide (a.link = l)) = some a →
      let base := { s with mail := { s.mail with acks := s.mail.acks.erase a } }
      ((∀ g ph, s.du.delivering = some (g, ph) → g.number ≠ a.gen) → exec (.blockAckTake l) s
        = .next { base with du := { s.du with stats := bumpAt Stat.duAcksStale s.du.stats } })
      ∧ ∀ g ph, s.du.delivering = some (g, ph) → g.number = a.gen →
        ((l, a.slot) ∉ s.du.ackSet → exec (.blockAckTake l) s
          = .next { base with du := { s.du with stats := bumpAt Stat.duAcksUnexpected s.du.stats } })
        ∧ ((l, a.slot) ∈ s.du.ackSet →
          exec (.blockAckTake l) s = .next (leave g a.slot (bumpAt Stat.duAcks s.du.stats) base)))
    ∧ ∀ k, s.mail.broken.find? (fun m => decide (m.1 = l)) = some (l, k) →
      let base := { s with mail := { s.mail with broken := s.mail.broken.erase (l, k) } }
      ((l, k) ∉ s.du.ackSet → exec (.brokenNoticeTake l) s = .next base)
      ∧ ∀ g, s.du.delivering = some (g, .blocks) → (l, k) ∈ s.du.ackSet →
        exec (.brokenNoticeTake l) s = .next (leave g k (bumpAt Stat.duBrokenDrops s.du.stats) base)

/-- R130; `chargeMiss` is the miss of R108, and the end of a delivery that of R123. That the misses, with the grants
they may bring, come before the removal of the blocks is assumption 21. A cut block's completion counts in
LNK_BLOCKS_SENT (assumption 10). -/
def Obligations.ApplyTimeoutAbandonsTheGeneration : Prop :=
  ∀ (s : State) (g : GenRecord) (ph : Phase), s.inReset = false → due s.now s.du.applyTimer = true →
    s.du.delivering = some (g, ph) →
    let t := s.du.ackSet.foldl (fun u m => chargeMiss m.1 m.2 u) s
    let without (c : Slc) : Slc := { c with patternQ := c.patternQ.filter fun f =>
      match f with | .block _ n _ => decide (n ≠ g.number) | .apply _ => true }
    exec .applyTimerExpiry s = .next (endDelivery { t with
        du := { s.du with ackSet := [], stats := bumpAt Stat.duAbandonedTimeout s.du.stats }
        links := ⟨without t.links.left, without t.links.right⟩
        mail := { t.mail with events := s.mail.events ++ [.applyAbandoned] } })
    ∧ ∀ (u : State) (l : Link) (k : Slot),
      let c := u.links.get l
      let m := c.modules.get k
      let counted := bumpAt Stat.lnkMisses c.stats
      let missed := { m with misses := min 15 (m.misses + 1) }
      let breaks : Prop := (m.state = .joining ∨ m.state = .active) ∧ u.mu.tables.link.missLimit ≤ missed.misses
      let broken := { c with
        modules := c.modules.set k { missed with state := .broken }, stats := bumpAt Stat.lnkBreaks counted }
      let silenced := { broken with
        modules := c.modules.set k { missed with state := .broken, outstanding := none }
        poll := c.poll.set k none
        patternQ := c.patternQ.filter fun f => match f with | .block j _ _ => decide (j ≠ k) | .apply _ => true }
      let told := { u with mail := { u.mail with broken := u.mail.broken ++ [(l, k)] } }
      let cut (f : LinkFrame) : Slc := { silenced with stats := match f with
        | .pattern (.block _ _ _) => bumpAt Stat.lnkBlocksSent (bumpAt Stat.lnkTxCut silenced.stats)
        | .pattern (.apply _) | .forwarded _ | .join _ _ | .poll _ => bumpAt Stat.lnkTxCut silenced.stats }
      (effState m = .absent → chargeMiss l k u = u)
      ∧ (effState m ≠ .absent →
        (¬breaks → chargeMiss l k u
          = { u with links := u.links.set l { c with modules := c.modules.set k missed, stats := counted } })
        ∧ (breaks →
          (u.mu.isolation = false → chargeMiss l k u
            = reportLink l { told with links := u.links.set l broken })
          ∧ (u.mu.isolation = true → (∀ f q, c.tx = .sending f q → frameAddress f ≠ some k) →
            chargeMiss l k u = reportLink l { told with links := u.links.set l silenced })
          ∧ (u.mu.isolation = true → ∀ f q, c.tx = .sending f q → frameAddress f = some k →
            chargeMiss l k u = reportLink l (grantNext l { told with links := u.links.set l (cut f) }))))
      ∧ ∀ f, frameAddress f = match f with
        | .pattern (.block j _ _) | .join j _ | .poll j => some j
        | .pattern (.apply _) | .forwarded _ => none

/-- R135 and R138, state by state. -/
def Obligations.LevelConditionsMoveByTheirMachine : Prop :=
  (∀ (s : State) (c : Cond) (l : Option Link) (x : LevelReport), s.inReset = false →
      s.mail.levels.find? (fun x => decide (x.cond = c) && decide (x.link = l)) = some x →
      let old := s.cm.recs.get (condNo c)
      let new := match l with
        | none => { old with raw := x.value }
        | some .left => { old with rawLeft := x.value }
        | some .right => { old with rawRight := x.value }
      let base := { s with
        mail := { s.mail with levels := s.mail.levels.erase x }
        cm := { s.cm with recs := s.cm.recs.set (condNo c) new } }
      let entry := s.mu.tables.condition.get (condNo c)
      (condRaw c new = condRaw c old → exec (.levelRawReport c l) s = .next base)
      ∧ (condRaw c old = false → condRaw c new = true →
        exec (.levelRawReport c l) s = .next (settle c (levelTrue s.now entry new) base))
      ∧ (condRaw c old = true → condRaw c new = false →
        exec (.levelRawReport c l) s = .next (settle c (levelFalse s.now entry new) base)))
    ∧ (∀ (s : State) (c : Cond), s.inReset = false →
      let r := s.cm.recs.get (condNo c)
      (due s.now r.persist = true → r.state = .alert → exec (.persistenceTimerExpiry c) s
        = .next (settle c ⟨{ r with state := .fault, faults := bump r.faults, persist := none }, [.fault]⟩ s))
      ∧ (condKind c = .level → due s.now r.recover = true → r.state = .recovering →
        exec (.levelRecoveryTimerExpiry c) s
          = .next (settle c ⟨{ r with state := .clear, count := 0, persist := none, recover := none }, [.clear]⟩ s)))
    ∧ ∀ (now : Nat) (e : CondEntry) (r : CondRec),
      let fault := { r with state := .fault, faults := bump r.faults, persist := none }
      let recovering : Moved :=
        if e.recovery = 0 then
          ⟨{ r with state := .clear, count := 0, persist := none, recover := none }, [.recovering, .clear]⟩
        else ⟨{ r with state := .recovering, recover := some (now + 1000 * e.recovery) }, [.recovering]⟩
      (r.state = .clear → levelTrue now e r = if e.persistence = 0 then ⟨fault, [.alert, .fault]⟩
        else ⟨{ r with state := .alert, persist := some (now + 1000 * e.persistence) }, [.alert]⟩)
      ∧ (r.state = .recovering → levelTrue now e r = ⟨{ fault with recover := none }, [.fault]⟩)
      ∧ (r.state = .fault → levelTrue now e r = ⟨r, []⟩)
      ∧ (r.state = .alert → levelFalse now e r = ⟨{ r with state := .clear, persist := none }, [.clear]⟩)
      ∧ (r.state = .fault → levelFalse now e r = if e.latching then ⟨r, []⟩ else recovering)

/-- R140, state by state; what the move brings in CM is the settling of R143 to R146. -/
def Obligations.EventConditionsMoveByTheirMachine : Prop :=
  (∀ (s : State) (c : Cond), s.inReset = false → c ∈ s.mail.events →
      exec (.conditionEvent c) s = .next (settle c
        (eventArrives s.now (s.mu.tables.condition.get (condNo c)) (s.cm.recs.get (condNo c)))
        { s with mail := { s.mail with events := s.mail.events.erase c } }))
    ∧ (∀ (s : State) (c : Cond), s.inReset = false → condKind c = .event →
      due s.now (s.cm.recs.get (condNo c)).recover = true →
      exec (.eventRecoveryTimerExpiry c) s = .next (settle c
        (eventRecoveryExpires s.now (s.mu.tables.condition.get (condNo c)) (s.cm.recs.get (condNo c))) s))
    ∧ ∀ (now : Nat) (e : CondEntry) (r : CondRec),
      let timer : Timer := some (now + 1000 * e.recovery)
      let fault (x : CondRec) : CondRec :=
        { x with
          state := .fault, faults := bump x.faults, persist := none, recover := if e.latching then none else timer }
      let clear := { r with state := .clear, count := 0, persist := none, recover := none }
      (r.state = .clear → eventArrives now e r =
        if e.persistence = 1 then ⟨fault { r with count := 1 }, [.alert, .fault]⟩
        else ⟨{ r with state := .alert, count := 1, recover := timer }, [.alert]⟩)
      ∧ (r.state = .alert → let n := min 255 (r.count + 1)
        eventArrives now e r = if e.persistence ≤ n then ⟨fault { r with count := n }, [.fault]⟩
          else ⟨{ r with count := n, recover := timer }, []⟩)
      ∧ (r.state = .fault → eventArrives now e r = if e.latching then ⟨r, []⟩ else ⟨{ r with recover := timer }, []⟩)
      ∧ (r.state = .recovering → eventArrives now e r = ⟨fault r, [.fault]⟩)
      ∧ (r.state = .alert ∨ r.state = .recovering → eventRecoveryExpires now e r = ⟨clear, [.clear]⟩)
      ∧ (r.state = .fault → eventRecoveryExpires now e r =
        if e.latching then ⟨{ r with recover := none }, []⟩
        else ⟨{ r with state := .recovering, recover := timer }, [.recovering]⟩)

/-- R143, R145 and R146; the NOTICE is formed as the event's last act (assumption 13). The bytes of a NOTICE are
section 11.3's. -/
def Obligations.ConditionMovesReportAndAct : Prop :=
  (∀ (s : State) (c : Cond) (m : Moved),
    let t := settle c m s
    let e := s.mu.tables.condition.get (condNo c)
    let joining : Prop := (e.report = .alert ∧ (CondState.alert ∈ m.entered ∨ CondState.fault ∈ m.entered))
      ∨ (e.report = .fault ∧ CondState.fault ∈ m.entered)
    let moved : Prop := CondState.fault ∈ m.entered
      ∨ ((s.cm.recs.get (condNo c)).state = .fault ∧ m.record.state ≠ .fault)
    (∀ i, t.cm.recs.get i = if i = condNo c then m.record else s.cm.recs.get i)
    ∧ (∀ i, t.cm.latched.get i = true ↔ s.cm.latched.get i = true ∨ (i = condNo c ∧ joining))
    ∧ (¬moved → t.cm.action = s.cm.action)
    ∧ (moved →
        (∀ d, (t.cm.recs.get (condNo d)).state = .fault →
          actionNo (s.mu.tables.condition.get (condNo d)).action ≤ actionNo t.cm.action)
        ∧ (t.cm.action = .none ∨ ∃ d, (t.cm.recs.get (condNo d)).state = .fault
          ∧ (s.mu.tables.condition.get (condNo d)).action = t.cm.action))
    ∧ (t.cm.action = s.cm.action → t.pb = s.pb ∧ t.mu = s.mu)
    ∧ (t.cm.action ≠ s.cm.action →
        let u := trigger { s with cm := { t.cm with outstanding := s.cm.outstanding, stats := s.cm.stats } }
        t.pb = u.pb ∧ t.mu = u.mu ∧ t.links = u.links)
    ∧ (¬joining ∨ s.cm.outstanding = true →
        t.up = s.up ∧ t.cm.outstanding = s.cm.outstanding ∧ t.cm.stats = s.cm.stats)
    ∧ (joining → s.cm.outstanding = false → s.up.notice = none →
        t.cm.outstanding = true ∧ t.cm.stats = bumpAt Stat.cmNotices s.cm.stats
        ∧ t.up = upStartUp s.mu.strap { s.up with notice := some ⟨noticePayload
            { t.cm with outstanding := false, stats := s.cm.stats }, none⟩ })
    ∧ t.cm.appliedMode = s.cm.appliedMode ∧ t.cm.fbk = s.cm.fbk)
    ∧ ∀ cm : Cm,
      let p := noticePayload cm
      p.length = 8 ∧ u8 p 0 = 2
      ∧ (∀ i : Fin 16, (256 * u8 p 1 + u8 p 2).testBit i.val = cm.latched.get i)
      ∧ (∀ i : Fin 16, u8 p (3 + i.val / 4) / 4 ^ (3 - i.val % 4) % 4
        = [CondState.clear, .alert, .fault, .recovering].idxOf (cm.recs.get i).state)
      ∧ u8 p 7 = [Action.none, .dim, .lowOnly, .fallback].idxOf cm.action + if cm.fbk then 4 else 0

/-- R137 and R143. Comparing the latching fields that each notice carries, with the recovery time live at the taking,
is assumption 7; the order among several conditions is assumption 32. -/
def Obligations.ConditionTableComesIntoForce : Prop :=
  ∀ (s : State) (x : LatchingChange) (rest : List LatchingChange), s.inReset = false → s.mail.condTable = x :: rest →
    let moveOf (c : Cond) (r : CondRec) : CondRec :=
      let e := s.mu.tables.condition.get (condNo c)
      if x.before.get (condNo c) = true ∧ x.after.get (condNo c) = false ∧ r.state = .fault then
        match condKind c with
        | .event => { r with recover := some (s.now + 1000 * e.recovery) }
        | .level =>
          if condRaw c r then r
          else if e.recovery = 0 then { r with state := .clear, count := 0, persist := none, recover := none }
          else { r with state := .recovering, recover := some (s.now + 1000 * e.recovery) }
      else r
    ConfigSound s →
    ∃ t, exec .conditionTableInForce s = .next t
      ∧ (∀ c, t.cm.recs.get (condNo c) = moveOf c (s.cm.recs.get (condNo c)))
      ∧ t.cm.latched = s.cm.latched ∧ t.cm.outstanding = s.cm.outstanding
      ∧ t.cm.action = actionLevel t.mu.tables.condition t.cm.recs
      ∧ t.mail.condTable = rest ∧ t.vsb = s.vsb ∧ t.sa = s.sa ∧ t.tu = s.tu ∧ t.du = s.du ∧ t.up = s.up

/-- R150 to R153, and R161 at the cut. CM takes LINK_DETACHED in this event (R153, assumption 28); what a move brings
in CM is ConditionMovesReportAndAct. -/
def Obligations.ReceiveErrorsMoveTheScoreAndPort : Prop :=
  (∀ (s : State) (began : Nat) (bytes : List Byte), s.inReset = false →
    (s.up.port = .detached ∨ s.now < s.up.rxFrom + began → exec (.upstreamFrameReceive began bytes) s = .next s)
    ∧ (s.up.port ≠ .detached → s.up.rxFrom + began ≤ s.now → ∀ i,
      (upArrival bytes = .badCheck ∧ i = Stat.upRxCheck) ∨ (upArrival bytes = .long ∧ i = Stat.upRxLong)
        ∨ (upArrival bytes = .cut ∧ i = Stat.upRxCut) →
      let score := min 255 (s.up.score + 6)
      let stats := bumpAt i s.up.stats
      let u := { s.up with score := score, stats := stats }
      (score < 48 → exec (.upstreamFrameReceive began bytes) s = .next { s with up := { u with port := .normal } })
      ∧ (48 ≤ score → score < 144 → exec (.upstreamFrameReceive began bytes) s = .next { s with up := { u with
          port := .warned, stats := if s.up.port = .warned then stats else bumpAt Stat.linkDegraded stats } })
      ∧ (144 ≤ score →
        let entered := { s with up := { u with
          port := .detached, recovery := timerIn s 100, stats := bumpAt Stat.upDetaches stats } }
        let reports (x : LevelReport) : Bool := decide (x.cond = .linkDetached ∧ x.link = none)
        let waiting : List LevelReport := s.mail.levels.filter reports ++ [⟨.linkDetached, none, true⟩]
        let t : State := waiting.foldl
          (fun t x => takeLevelReport x t)
          { entered with mail := { s.mail with levels := s.mail.levels.filter fun x => !reports x } }
        let back : Option Notice :=
          match t.up.tx with
          | some ⟨.notice, f⟩ =>
            if t.up.notice = none ∧ t.cm.outstanding = true then some ⟨f.payload, some f.seq⟩ else t.up.notice
          | some ⟨.reply _, _⟩ | some ⟨.passUp, _⟩ | none => t.up.notice
        let held : Option UpTx :=
          match t.up.tx with
          | some ⟨.reply r, f⟩ => some ⟨.reply r, f⟩
          | some ⟨.passUp, f⟩ => some ⟨.passUp, f⟩
          | some ⟨.notice, _⟩ | none => t.up.held
        exec (.upstreamFrameReceive began bytes) s = .next { t with
          up := { t.up with tx := none, held := held, notice := back }
          mail := { t.mail with tears := t.mail.tears ++ [.detached] } })))
    ∧ ∀ (s : State) (value : Bool),
      let old := s.cm.recs.get 14
      let new := { old with raw := value }
      let base := { s with cm := { s.cm with recs := s.cm.recs.set 14 new } }
      let entry := s.mu.tables.condition.get 14
      let t := takeLevelReport ⟨.linkDetached, none, value⟩ s
      (old.raw = value → t = base)
      ∧ (old.raw = false → value = true → t = settle .linkDetached (levelTrue s.now entry new) base)
      ∧ (old.raw = true → value = false → t = settle .linkDetached (levelFalse s.now entry new) base)
      ∧ (old.raw = false → value = true → old.state = .clear → entry.persistence = 0 →
        (t.cm.recs.get 14).state = .fault
        ∧ actionNo (s.mu.tables.condition.get 14).action ≤ actionNo t.cm.action
        ∧ (entry.report = .fault → t.cm.latched.get 14 = true
          ∧ (s.cm.outstanding = false → t.cm.outstanding = true
            ∧ (s.up.port = .detached → t.up.notice.isSome = true))))

/-- R150, R151, R155 to R158 and R114. -/
def Obligations.GoodFramesAreSorted : Prop :=
  (∀ (s : State) (began : Nat) (bytes : List Byte) (f : UpFrame), s.inReset = false → PortSound s →
      s.up.port ≠ .detached → s.up.rxFrom + began ≤ s.now → upArrival bytes = .good f →
      exec (.upstreamFrameReceive began bytes) s = .next (sortFrame f { s with up := { s.up with
        score := s.up.score - 1, port := if s.up.score - 1 < 48 then .normal else .warned
        stats := bumpAt Stat.upRxGood s.up.stats } }))
    ∧ ∀ (s : State) (f : UpFrame),
      let up (u : Up) (i : Fin 19) : State := { s with up := { u with stats := bumpAt i u.stats } }
      let offered (c : Slc) : Slc :=
        if c.passQ.length < 8 then wakeSlc { c with passQ := c.passQ ++ [⟨f.code, f.payload⟩] }
        else { c with stats := bumpAt Stat.lnkPassDropped c.stats }
      let passed := up s.up Stat.upPassDown
      (f.code.toNat = 1000 + 2 * s.mu.strap.val →
        sortFrame f s = if s.up.mgmtQ.length < 4 then up { s.up with mgmtQ := s.up.mgmtQ ++ [f] } Stat.upMgmtFrames
          else up s.up Stat.mgmtOverrun)
      ∧ (f.code.toNat ≠ 1000 + 2 * s.mu.strap.val →
        let fits (i : Fin 16) : Prop :=
          let e := s.mu.tables.filter.get i
          e.enabled = true ∧ ∀ d : Fin 10, e.mask.getLsbD d.val = true → f.code.getLsbD d.val = e.code.getLsbD d.val
        ((∀ i, ¬fits i) → sortFrame f s = up s.up Stat.upUnmatched)
        ∧ ∀ i, fits i → (∀ j, fits j → i ≤ j) →
          match (s.mu.tables.filter.get i).action with
          | .object => sortFrame f s =
              if s.up.objectQ.length < 24 then up { s.up with objectQ := s.up.objectQ ++ [f] } Stat.upObjFrames
              else { up s.up Stat.upObjDropped with
                mail := { s.mail with events := s.mail.events ++ [.objectOverrun] } }
          | .vehicle => sortFrame f s =
              if s.up.vehicleQ.length < 4 then up { s.up with vehicleQ := s.up.vehicleQ ++ [f] } Stat.upVehFrames
              else up { s.up with
                vehicleQ := s.up.vehicleQ.tail ++ [f], stats := bumpAt Stat.upVehDisplaced s.up.stats } Stat.upVehFrames
          | .passLeft => sortFrame f s = { passed with links := { s.links with left := offered s.links.left } }
          | .passRight => sortFrame f s = { passed with links := { s.links with right := offered s.links.right } }
          | .passBoth => sortFrame f s
              = { passed with links := ⟨offered s.links.left, offered s.links.right⟩ }
          | .discard => sortFrame f s = up s.up Stat.upDiscarded)

/-- R154, R159 and R161. -/
def Obligations.UpstreamTransmissionsInFixedOrder : Prop :=
  (∀ (s : State) (x : UpTx), s.inReset = false → s.up.tx = some x → ¬(x.kind = .reply true ∧ s.mu.restartPending = true) →
      let sent := bumpAt Stat.upTxFrames s.up.stats
      exec .upstreamTxComplete s = .next { s with up := upStartUp s.mu.strap { s.up with
        tx := none, stats := if x.kind = .passUp then bumpAt Stat.upPassUpSent sent else sent } })
    ∧ (∀ s : State, s.inReset = false → due s.now s.up.recovery = true →
      exec .detachedRecovery s = .next { s with
        up := upStartUp s.mu.strap { s.up with score := 0, port := .normal, recovery := none, rxFrom := s.now }
        mail := { s.mail with levels := s.mail.levels ++ [⟨.linkDetached, none, false⟩] } })
    ∧ ∀ (strap : Fin 4) (u : Up),
      let resent (x : UpTx) (v : Up) : Up := { v with tx := some x, stats := bumpAt Stat.upTxResent u.stats }
      let fresh (kind : UpTxKind) (code : BitVec 10) (payload : List Byte) (v : Up) : Up :=
        { v with tx := some ⟨kind, ⟨code, u.txSeq, true, payload⟩⟩, txSeq := u.txSeq + 1 }
      (u.port = .detached ∨ u.tx ≠ none → upStartUp strap u = u)
      ∧ (u.port ≠ .detached → u.tx = none →
        (∀ x, u.held = some x → upStartUp strap u = resent x { u with held := none })
        ∧ (u.held = none →
          (∀ r rest, u.replyQ = r :: rest → upStartUp strap u
            = fresh (.reply r.restart) (BitVec.ofNat 10 (1001 + 2 * strap.val)) r.payload { u with replyQ := rest })
          ∧ (u.replyQ = [] →
            (∀ n, u.notice = some n → upStartUp strap u = match n.seq with
              | none => fresh .notice (BitVec.ofNat 10 (1001 + 2 * strap.val)) n.payload { u with notice := none }
              | some q => resent ⟨.notice, ⟨BitVec.ofNat 10 (1001 + 2 * strap.val), q, true, n.payload⟩⟩
                  { u with notice := none })
            ∧ (u.notice = none →
              (∀ p rest, u.passUpQ = p :: rest →
                upStartUp strap u = fresh .passUp p.code p.payload { u with passUpQ := rest })
              ∧ (u.passUpQ = [] → upStartUp strap u = u)))))

/-- R164, R166 to R168 and R172, with the data of R20, R59, R79, R121, R134, R148 and R162 in the encodings of section
11.3 and R180; `entryLayout` is section 11.5. Codes section 11.6 does not list: assumption 11; the Delivering slot:
assumption 12; the order of clearing, counting and sending: assumption 14. -/
def Obligations.MalformedAndReadingRequestsAreAnswered : Prop :=
  (∀ (s : State) (f : UpFrame) (rest : List UpFrame), Takes s f rest →
      let t := afterTaking rest s
      let answers (c : Instr) (status : Status) (data : List Byte) (u : State) : Prop :=
        exec c s = .next (answered f status data false u)
      (f.payload.length < 2 ∨ f.last = false → answers .malformedRequest .badArgument [] t)
      ∧ (∀ code tag args, f.last = true → f.payload = code :: tag :: args →
        (code.toNat = 0 ∨ 20 < code.toNat → answers .malformedRequest .unknownCommand [] t)
        ∧ ((code = 1 ∨ 9 ≤ code.toNat ∧ code.toNat ≤ 14 ∨ code = 16 ∨ code = 17 ∨ code = 20) ∧ args.length ≠ 0
            ∨ (code = 2 ∨ code = 3 ∨ code = 15) ∧ args.length ≠ 1 ∨ (code = 4 ∨ code = 5) ∧ args.length ≠ 2
            ∨ (code = 6 ∨ code = 7) ∧ args.length ≠ 4 ∨ code = 8 ∧ args.length < 2 ∨ code = 18 ∧ 16 < args.length
            ∨ code = 19 ∧ (∀ n, args ≠ [0, n]) ∧ (∀ l k, args ≠ [1, l, k]) →
          answers .malformedRequest .badArgument [] t))
      ∧ (Asks f 1 [] → answers .readInfo .done (infoData s.mu) t)
      ∧ (∀ part, Asks f 2 [part] →
        (part = 0 → answers .readState .done (motionData s.now s.vsb) t)
        ∧ (part = 1 → answers .readState .done (otherData s.now s.vsb) t)
        ∧ (part = 2 → answers .readState .done (buildData s.mu s.pb) t)
        ∧ (part = 3 → answers .readState .done (deliveryData s.now s.du) t)
        ∧ (part = 4 → answers .readState .done (portData s.now s.mu.strap t.up) t)
        ∧ (5 ≤ part.toNat → answers .readState .badArgument [] t))
      ∧ (∀ n, Asks f 3 [n] →
        (∀ k : TrackNo, n.toNat = k.val → answers .readTracks .done (tracksData s.now s.tu k) t)
        ∧ (24 ≤ n.toNat → answers .readTracks .badArgument [] t))
      ∧ (∀ l k, Asks f 4 [l, k] →
        (∀ (link : Link) (slot : Slot), l.toNat = (if link = .left then 0 else 1) → k.toNat = slot.val →
          answers .readModules .done (modulesData ((s.mu.tables.modules.get link).get slot) (s.links.get link) slot
            s.mu.isolation) t)
        ∧ (1 < l.toNat ∨ 3 < k.toNat → answers .readModules .badArgument [] t))
      ∧ (∀ first count, Asks f 5 [first, count] →
        let ok : Prop := 1 ≤ count.toNat ∧ count.toNat ≤ 3 ∧ first.toNat ≤ 15 ∧ first.toNat + count.toNat ≤ 16
        (ok → answers .readConditions .done (conditionsData s.now s.cm first.toNat count.toNat) t)
        ∧ (¬ok → answers .readConditions .badArgument [] t))
      ∧ (∀ group first count clear, Asks f 6 [group, first, count, clear] →
        let size := [7, 11, 14, 4, 13, 13, 9, 3, 19, 4].getD group.toNat 0
        let ok : Prop := clear.toNat ≤ 1 ∧ 1 ≤ count.toNat ∧ count.toNat ≤ 12 ∧ first.toNat + count.toNat ≤ size
        let cells := [s.vsb.stats.cells, s.sa.stats.cells, s.tu.stats.cells, s.pb.stats.cells,
          s.links.left.stats.cells, s.links.right.stats.cells, s.du.stats.cells, s.cm.stats.cells, s.up.stats.cells,
          s.mu.stats.cells].getD group.toNat []
        let data := ((cells.drop first.toNat).take count.toNat).flatMap bytes2
        let cleared (k : Nat) (r : Row k Nat) : Row k Nat := Row.tabulate fun i =>
          if first.toNat ≤ i.val ∧ i.val < first.toNat + count.toNat then 0 else r.get i
        (¬ok → answers .readStatistics .badArgument [] t)
        ∧ (ok → clear = 0 → answers .readStatistics .done data t)
        ∧ (ok → clear = 1 → answers .readStatistics .done data (match group.toNat with
          | 0 => { t with vsb := { s.vsb with stats := cleared 7 s.vsb.stats } }
          | 1 => { t with sa := { s.sa with stats := cleared 11 s.sa.stats } }
          | 2 => { t with tu := { s.tu with stats := cleared 14 s.tu.stats } }
          | 3 => { t with pb := { s.pb with stats := cleared 4 s.pb.stats } }
          | 4 => { t with links := { s.links with
              left := { s.links.left with stats := cleared 13 s.links.left.stats } } }
          | 5 => { t with links := { s.links with
              right := { s.links.right with stats := cleared 13 s.links.right.stats } } }
          | 6 => { t with du := { s.du with stats := cleared 9 s.du.stats } }
          | 7 => { t with cm := { s.cm with stats := cleared 3 s.cm.stats } }
          | 8 => { t with up := { t.up with stats := cleared 19 s.up.stats } }
          | _ => { t with mu := { s.mu with stats := cleared 4 s.mu.stats } })))
      ∧ ∀ id copy first count, Asks f 7 [id, copy, first, count] →
        let run (i : TableId) : Prop := id.toNat = tableNo i ∧ copy.toNat ≤ 1 ∧ 1 ≤ count.toNat
          ∧ count.toNat ≤ entriesPerFrame i ∧ first.toNat + count.toNat ≤ entryCount i
        let data (i : TableId) (x : Tables) : List Byte :=
          (List.range count.toNat).flatMap fun k => entryLayout i (first.toNat + k) x
        ((∀ i, ¬run i) → answers .readTable .badArgument [] t)
        ∧ ∀ i, run i →
          (copy = 0 → answers .readTable .done (data i s.mu.tables) t)
          ∧ (copy = 1 → isStaged s.mu.staged i = false → answers .readTable .refusedState [] t)
          ∧ (copy = 1 → isStaged s.mu.staged i = true → answers .readTable .done
              (data i (overlay s.mu.staged s.mu.tables)) t))
    ∧ (∀ (n : Nat) (x : Int) (b : Bool), byte1 n = [BitVec.ofNat 8 n]
      ∧ bytes2 n = [BitVec.ofNat 8 (n / 256), BitVec.ofNat 8 n] ∧ sbyte1 x = [BitVec.ofInt 8 x]
      ∧ sbytes2 x = [BitVec.ofInt 8 (x / 256), BitVec.ofInt 8 x] ∧ flag1 b = [if b then 1 else 0])
    ∧ (∀ (f : UpFrame) (seq : BitVec 4) (status : Status) (data : List Byte),
      let code := [Status.done, .refusedState, .badArgument, .badTable, .busyCommit, .unknownCommand].idxOf status
      replyPayload (requestTag f) seq status data
        = [1, if f.payload.length < 2 then 0 else f.payload.getD 1 0, BitVec.ofNat 8 (16 * seq.toNat + code)] ++ data)
    ∧ (∀ mu : Mu, infoData mu = [9, 7, 24, 3] ++ byte1 mu.strap.val ++ flag1 mu.tablesDefault
      ++ [Config.resetCauseCode mu.cause, Config.configStateCode mu.config])
    ∧ ∀ now : Nat,
      let age (x : Option Nat) : List Byte := bytes2 (match x with | none => 65535 | some u => min 65535 ((now - u) / 1000))
      let fresh (b : Bool) : List Byte := [Config.freshnessCode b]
      let ofField (source : FieldSource) (updated : Option Nat) (isFresh : Bool) : List Byte := (match source with
        | .frame => [0] ++ age updated
        | .pin => [1] ++ bytes2 0) ++ fresh isFresh
      let left (x : Timer) : Option Nat := x.map fun d => (d - now) / 1000
      let mode (m : Mode) : List Byte :=
        byte1 ([Mode.off, .low, .town, .country, .motorway, .adverse, .full, .fallback].idxOf m)
      let list (xs : List Byte) : List Byte := byte1 xs.length ++ xs
      (∀ v : Vsb, motionData now v
        = bytes2 (v.speed.value.getD 65535) ++ ofField v.speed.source v.speedIn.updatedAt v.speed.fresh
          ++ sbytes2 (v.steer.value.getD (-32768)) ++ ofField v.steer.source v.steerIn.updatedAt v.steer.fresh
          ++ bytes2 (v.speedIn.value.getD 65535) ++ age v.speedIn.updatedAt ++ fresh v.speedIn.fresh
          ++ sbytes2 (v.steerIn.value.getD (-32768)) ++ age v.steerIn.updatedAt ++ fresh v.steerIn.fresh
          ++ bytes2 v.pinSpeed ++ sbytes2 (if v.pin.referenced then v.pin.angle else -32768)
          ++ [Config.referencingCode v.pin.referenced] ++ sbytes2 v.pin.counter)
      ∧ (∀ v : Vsb,
        let request : List Byte := byte1 (match v.request.value with
          | none => 255
          | some r => [BeamRequest.off, .low, .highAuto, .full, .flash].idxOf r)
        let road : List Byte := byte1 (match v.road.value with
          | none => 255
          | some r => [RoadClass.urban, .rural, .motorway].idxOf r)
        otherData now v = sbyte1 (v.pitch.value.getD (-128)) ++ ofField .frame v.pitch.updatedAt v.pitch.fresh
          ++ request ++ ofField .frame v.request.updatedAt v.request.fresh
          ++ road ++ ofField .frame v.road.updatedAt v.road.fresh
          ++ byte1 (v.weather.value.getD 255) ++ ofField .frame v.weather.updatedAt v.weather.fresh)
      ∧ (∀ (mu : Mu) (pb : Pb), buildData mu pb = [Config.configStateCode mu.config] ++ flag1 mu.holdLow
          ++ flag1 mu.isolation ++ mode pb.mode ++ sbytes2 pb.swivel ++ sbyte1 pb.rowShift ++ flag1 pb.build.isSome
          ++ flag1 pb.rebuild ++ [pb.generation])
      ∧ (∀ du : Du, deliveryData now du
        = (match du.applied with
          | none => [255, 255]
          | some (n, m) => [n] ++ mode m)
        ++ (match du.delivering with
          | none => [255, 255] ++ Config.emptyDeliveringRest.take 23
          | some (g, phase) => [g.number] ++ mode g.mode ++ sbytes2 g.swivel ++ sbyte1 g.rowShift
              ++ bytes2 (match g.scene with | none => 65535 | some n => n.toNat) ++ [Config.phaseCode phase]
              ++ list (du.ackSet.map fun m => Config.ackMemberCode m.1 m.2) ++ byte1 ((left du.applyTimer).getD 255))
        ++ (match du.waiting with
          | none => [255, 255]
          | some g => [g.number] ++ mode g.mode))
      ∧ (∀ (strap : Fin 4) (u : Up), portData now strap u = [Config.portStateCode u.port] ++ byte1 u.score
          ++ byte1 ((left u.recovery).getD 255) ++ byte1 u.objectQ.length ++ byte1 u.vehicleQ.length
          ++ byte1 u.mgmtQ.length ++ byte1 u.replyQ.length ++ byte1 u.passUpQ.length ++ flag1 u.notice.isSome
          ++ flag1 u.held.isSome ++ byte1 strap.val ++ bytes2 (1000 + 2 * strap.val) ++ bytes2 (1001 + 2 * strap.val))
      ∧ (∀ (tu : Tu) (n : TrackNo),
        let count (p : Track → Bool) : Nat := (List.finRange 24).countP fun k => (tu.tracks.get k).any p
        tracksData now tu n = byte1 (count fun _ => true)
          ++ byte1 (count fun t => decide (t.state = .confirmed) && decide (t.cls = .streetlight)) ++ byte1 n.val
          ++ match tu.tracks.get n with
            | none => [255]
            | some t => byte1 ([TrackState.tentative, .confirmed, .coasting].idxOf t.state)
                ++ byte1 ([ObjClass.oncoming, .preceding, .twoWheeler, .pedestrian, .sign, .streetlight].idxOf t.cls)
                ++ [t.id] ++ sbytes2 t.left ++ sbytes2 t.right ++ sbyte1 t.upper ++ sbyte1 (t.lower.getD (-128))
                ++ bytes2 (t.distance.getD 65535) ++ byte1 t.hits ++ bytes2 ((left t.hold).getD 65535)
                ++ [t.lastScene])
      ∧ (∀ (e : ModuleEntry) (c : Slc) (k : Slot) (isolation : Bool),
        let m := c.modules.get k
        modulesData e c k isolation = flag1 e.present ++ byte1 e.firstRow ++ byte1 e.rowCount ++ byte1 e.firstColumn
          ++ byte1 e.columnCount ++ [Config.moduleStateCode m.state] ++ byte1 m.misses ++ byte1 m.band
          ++ list (m.failed.map (BitVec.ofNat 8)) ++ flag1 m.selfFallback
          ++ [Config.outstandingCode (m.outstanding.map Prod.fst), Config.pollEntryCode (c.poll.get k)]
          ++ byte1 c.patternQ.length ++ byte1 c.passQ.length
          ++ [Config.txStateCode (match c.tx with
            | .idle => .idle
            | .waking => .waking
            | .sending _ _ => .sending)]
          ++ byte1 ([Member.pattern, .pass, .pollGroup].idxOf c.lastGranted) ++ byte1 c.lastServed.val
          ++ flag1 isolation)
      ∧ ∀ (cm : Cm) (first count : Nat), first + count ≤ 16 →
        let items (n : Nat) : List Byte :=
          let r := cm.recs.get (Fin.ofNat 16 n)
          let event := decide (n = 1 ∨ n = 2 ∨ n = 3 ∨ n = 12 ∨ n = 15)
          let raw : Nat :=
            if event then 0
            else if 8 ≤ n ∧ n ≤ 11 then
              (if r.rawLeft || r.rawRight then 1 else 0) + (if r.rawLeft then 2 else 0) + (if r.rawRight then 4 else 0)
            else if r.raw then 1 else 0
          byte1 ([CondState.clear, .alert, .fault, .recovering].idxOf r.state) ++ byte1 raw
            ++ byte1 (if event then r.count else 0)
            ++ bytes2 ((left (match r.persist with | none => r.recover | some d => some d)).getD 65535)
            ++ flag1 (cm.latched.get (Fin.ofNat 16 n)) ++ bytes2 r.faults
        conditionsData now cm first count = ((List.range count).flatMap fun k => items (first + k))
          ++ byte1 ([Action.none, .dim, .lowOnly, .fallback].idxOf cm.action) ++ flag1 cm.outstanding
          ++ (match cm.appliedMode with | none => [255] | some m => mode m) ++ flag1 cm.fbk

/-- R170, R171, R173, R174 with R180, and R101 for the slots a load takes away. `EntryPasses` is R174's list,
`entryLayout` section 11.5; `firstFailing` is ConfigurationIsEnteredLeftAndRestarted. -/
def Obligations.TablesAreLoadedCommittedAndDiscarded : Prop :=
  (∀ (s : State) (f : UpFrame) (rest : List UpFrame), Takes s f rest →
      let t := afterTaking rest s
      let answers (c : Instr) (status : Status) (data : List Byte) (u : State) : Prop :=
        exec c s = .next (answered f status data false u)
      let named (i : TableId) (n : Nat) : List Byte := [BitVec.ofNat 8 (tableNo i), BitVec.ofNat 8 n]
      (∀ id first bytes, Asks f 8 (id :: first :: bytes) →
        let good (i : TableId) (count : Nat) : Prop := id.toNat = tableNo i ∧ bytes.length = count * entrySize i
          ∧ 1 ≤ count ∧ count ≤ entriesPerFrame i ∧ first.toNat + count ≤ entryCount i
        ((∀ i count, ¬good i count) → answers .loadTable .badArgument [] t)
        ∧ ∀ i count, good i count →
          let entries := pieces (entrySize i) count bytes
          (s.mu.config = .run → tableLive i = false → answers .loadTable .refusedState [] t)
          ∧ (s.mu.config = .run → tableLive i = true → s.mu.commitPending = true → answers .loadTable .busyCommit [] t)
          ∧ (s.mu.config = .run → tableLive i = true → s.mu.commitPending = false →
            match writeEntries i first.toNat entries (overlay s.mu.staged s.mu.tables) with
            | .error n => answers .loadTable .badTable (named i n) t
            | .ok x => answers .loadTable .done [] { t with mu := { s.mu with staged := stageTable i x s.mu.staged } })
          ∧ (s.mu.config = .config →
            match writeEntries i first.toNat entries s.mu.tables with
            | .error n => answers .loadTable .badTable (named i n) t
            | .ok x => answers .loadTable .done []
                (moduleLoadFollows i (tableLives i s.mu.tables { t with mu := { s.mu with tables := x } }))))
      ∧ (Asks f 9 [] →
        let staged := allTables.filter (isStaged s.mu.staged)
        (s.mu.config = .config → answers .commitTables .refusedState [] t)
        ∧ (s.mu.config = .run → s.mu.commitPending = true → answers .commitTables .busyCommit [] t)
        ∧ (s.mu.config = .run → s.mu.commitPending = false → staged = [] → answers .commitTables .refusedState [] t)
        ∧ (s.mu.config = .run → s.mu.commitPending = false → staged ≠ [] →
          match firstFailing staged (overlay s.mu.staged s.mu.tables) with
          | none => answers .commitTables .done [] (trigger { t with mu := { s.mu with
              commitPending := true, stats := bumpAt Stat.muCommits s.mu.stats } })
          | some (i, n) => answers .commitTables .badTable (named i n) { t with
              mu := { s.mu with staged := emptyStaging, stats := bumpAt Stat.muCommitsRejected s.mu.stats }
              mail := { s.mail with events := s.mail.events ++ [.tableRejected] } }))
      ∧ (Asks f 10 [] →
        (s.mu.config = .run → s.mu.commitPending = true → answers .discardStaged .busyCommit [] t)
        ∧ (s.mu.config = .run → s.mu.commitPending = false →
          answers .discardStaged .done [] { t with mu := { s.mu with staged := emptyStaging } })
        ∧ (s.mu.config = .config → answers .discardStaged .done [] t)))
    ∧ (∀ i : TableId,
      let no := [TableId.curve, .classPolicy, .margin, .window, .derate, .condition, .vehicle, .build, .filter, .segMap,
        .modules, .profile, .mode, .link].idxOf i
      tableNo i = no ∧ allTables[no]? = some i ∧ (tableLive i = true ↔ no < 8)
      ∧ entryCount i = [9, 6, 5, 4, 8, 16, 1, 1, 16, 2, 8, 72, 7, 1].getD no 0
      ∧ entrySize i = [20, 13, 3, 10, 1, 7, 21, 5, 6, 17, 5, 24, 7, 11].getD no 0
      ∧ entriesPerFrame i = [1, 2, 5, 2, 8, 4, 1, 1, 4, 1, 5, 1, 4, 1].getD no 0)
    ∧ allTables.length = 14
    ∧ (∀ (size count : Nat) (bytes : List Byte),
      pieces size count bytes = (List.range count).map fun k => (bytes.drop (k * size)).take size)
    ∧ (∀ (i : TableId) (n : Nat) (x : Tables),
      writeEntries i n [] x = .ok x
      ∧ ∀ bs rest, writeEntries i n (bs :: rest) x = match writeEntry i n bs x with
        | none => .error n
        | some y => writeEntries i (n + 1) rest y)
    ∧ (∀ (i : TableId) (n : Nat) (bs : List Byte) (x : Tables), n < entryCount i → bs.length = entrySize i →
      ((writeEntry i n bs x).isSome = true ↔ EntryPasses i n bs x)
      ∧ ∀ y, writeEntry i n bs x = some y → entryLayout i n y = padsCleared i n bs
        ∧ ∀ j m, m < entryCount j → ¬(j = i ∧ m = n) → entryLayout j m y = entryLayout j m x)
    ∧ (∀ (st : Staging) (x : Tables), overlay st x = { x with
        curve := st.curve.getD x.curve, classPolicy := st.classPolicy.getD x.classPolicy
        margin := st.margin.getD x.margin, window := st.window.getD x.window, derate := st.derate.getD x.derate
        condition := st.condition.getD x.condition, vehicle := st.vehicle.getD x.vehicle
        build := st.build.getD x.build })
    ∧ (∀ (i : TableId) (st : Staging) (x y : Tables), tableLive i = true →
      isStaged (stageTable i x st) i = true
      ∧ (∀ n, entryLayout i n (overlay (stageTable i x st) y) = entryLayout i n x)
      ∧ ∀ j, j ≠ i → isStaged (stageTable i x st) j = isStaged st j
        ∧ ∀ n, entryLayout j n (overlay (stageTable i x st) y) = entryLayout j n (overlay st y))
    ∧ (∀ i, isStaged emptyStaging i = false)
    ∧ (∀ (i : TableId) (before : Tables) (s : State),
      let u := tableLives i before s
      u.mail.vehicleParams = s.mail.vehicleParams + (if i = .vehicle then 1 else 0)
      ∧ u.mail.classPolicy = s.mail.classPolicy + (if i = .classPolicy then 1 else 0)
      ∧ u.mail.condTable = s.mail.condTable ++ if i = .condition then
          [⟨before.condition.map fun e => e.latching, s.mu.tables.condition.map fun e => e.latching⟩] else [])
    ∧ ∀ (i : TableId) (s : State), (i ≠ .modules → moduleLoadFollows i s = s)
      ∧ ∀ l k,
        let m := (s.links.get l).modules.get k
        let gone : Prop := ((s.mu.tables.modules.get l).get k).present = false ∧ m.treatedAbsent = false
          ∧ m.state ≠ .absent
        let c := (moduleLoadFollows .modules s).links.get l
        (gone → c.modules.get k = { m with treatedAbsent := true } ∧ c.poll.get k = none)
        ∧ (¬gone → c.modules.get k = m ∧ c.poll.get k = (s.links.get l).poll.get k)

/-- R175, R176, R177, the set-up of R103, and R174's checks over whole tables in the order of R173 and R176. That
EXIT_CONFIG gives exactly one trigger is assumption 30. The set-up ends with the four raw values of R122. -/
def Obligations.ConfigurationIsEnteredLeftAndRestarted : Prop :=
  (∀ (s : State) (f : UpFrame) (rest : List UpFrame), Takes s f rest →
      let t := afterTaking rest s
      let slow : Prop := s.vsb.speed.fresh = true ∧ ∃ v, s.vsb.speed.value = some v ∧ v < 50
      (Asks f 11 [] →
        (s.mu.config = .run → slow → exec .enterConfig s = .next (answered f .done [] false (trigger { t with
          mu := { s.mu with staged := emptyStaging, commitPending := false, config := .config }
          mail := { s.mail with tears := s.mail.tears ++ [.enterConfig] } })))
        ∧ (s.mu.config = .config ∨ ¬slow → exec .enterConfig s = .next (answered f .refusedState [] false t)))
      ∧ (Asks f 12 [] →
        (s.mu.config = .run → exec .exitConfig s = .next (answered f .refusedState [] false t))
        ∧ (s.mu.config = .config → match firstFailing allTables s.mu.tables with
          | some (i, n) => exec .exitConfig s
              = .next (answered f .badTable [BitVec.ofNat 8 (tableNo i), BitVec.ofNat 8 n] false t)
          | none =>
            let setUp (l : Link) : Slc :=
              let c := s.links.get l
              let rows := s.mu.tables.modules.get l
              let modules := rows.map fun e => ⟨if e.present then .joining else .absent, 0, 0, [], false, none, false⟩
              let poll := rows.map fun e => if e.present then some .join else none
              let queue := c.patternQ.filter fun x => match x with
                | .block k _ _ => (rows.get k).present
                | .apply _ => true
              { c with
                modules := modules, poll := poll, patternQ := queue, sent := linkRaws s.mu.tables l modules
                tx := if c.tx = .idle ∧ (queue ≠ [] ∨ c.passQ ≠ [] ∨ ∃ k, poll.get k ≠ none) then .waking else c.tx }
            let reports (l : Link) : List LevelReport :=
              [⟨.moduleBroken, some l, (setUp l).sent.broken⟩, ⟨.moduleSelfFallback, some l, (setUp l).sent.selfFallback⟩,
               ⟨.segmentFailed, some l, (setUp l).sent.segFailed⟩, ⟨.overtemp, some l, (setUp l).sent.overtemp⟩]
            exec .exitConfig s = .next (answered f .done
              [BitVec.ofNat 8 (undriven s.mu.tables.modules.left), BitVec.ofNat 8 (undriven s.mu.tables.modules.right)]
              false (trigger { t with
                mu := { s.mu with config := .run, tablesDefault := false }
                tu := { s.tu with tracks := Row.fill 24 none }
                links := ⟨setUp .left, setUp .right⟩
                mail := { s.mail with levels := s.mail.levels ++ reports .left ++ reports .right } }))))
      ∧ (Asks f 20 [] →
        (s.mu.config = .run → exec .restart s
          = .next (answered f .done [] true { t with mu := { s.mu with restartPending := true } }))
        ∧ (s.mu.config = .config → exec .restart s = .next (answered f .refusedState [] false t))))
    ∧ (∀ (among : TableId → Bool) (x : Tables),
      let fails (i : TableId) (n : Nat) : Prop := among i = true ∧ n < entryCount i
        ∧ ¬(EntryPasses i n (entryLayout i n x) x ∧ BandRises i n x)
      (firstFailing (allTables.filter among) x = none ↔ ∀ i n, ¬fails i n)
      ∧ ∀ i n, firstFailing (allTables.filter among) x = some (i, n) ↔ fails i n
        ∧ ∀ j m, fails j m → tableNo i < tableNo j ∨ (i = j ∧ n ≤ m))
    ∧ ∀ rows : Row 4 ModuleEntry, undriven rows = (List.finRange 96).countP fun i => decide (∀ k,
      (rows.get k).present = true → ¬((rows.get k).firstRow ≤ i.val / 24
        ∧ i.val / 24 < (rows.get k).firstRow + (rows.get k).rowCount ∧ (rows.get k).firstColumn ≤ i.val % 24
        ∧ i.val % 24 < (rows.get k).firstColumn + (rows.get k).columnCount))

/-- R169, R110, R12, R57, R147, R142, R111 and R105. The reply comes after the command's effect (assumption 14), and a
fresh NOTICE of CLEAR_NOTICE starts on an idle transmitter before the reply is placed (assumption 31). -/
def Obligations.CommandsOfOtherBlocksAreCarriedOut : Prop :=
  ∀ (s : State) (f : UpFrame) (rest : List UpFrame), Takes s f rest →
    let t := afterTaking rest s
    let answers (c : Instr) (status : Status) (u : State) : Prop := exec c s = .next (answered f status [] false u)
    let rejoined (k : Slot) (c : Slc) : Slc := wakeSlc { c with
      modules := c.modules.set k { c.modules.get k with state := .joining, misses := 0, outstanding := none }
      poll := c.poll.set k (some .join) }
    (Asks f 13 [] → answers .holdLow .done
      (if s.mu.holdLow = true then t else trigger { t with mu := { s.mu with holdLow := true } }))
    ∧ (Asks f 14 [] → answers .releaseHold .done
      (if s.mu.holdLow = false then t else trigger { t with mu := { s.mu with holdLow := false } }))
    ∧ (∀ a, Asks f 15 [a] → (1 < a.toNat → answers .setIsolation .badArgument t)
      ∧ (a.toNat ≤ 1 → ∃ u, answers .setIsolation .done u ∧ u.mu = { s.mu with isolation := decide (a = 1) }
        ∧ (∀ l k, (u.links.get l).modules.get k =
            let m := (s.links.get l).modules.get k
            if effState m = .broken then { m with state := .joining, misses := 0, outstanding := none } else m)
        ∧ (∀ l k, (u.links.get l).poll.get k =
            if effState ((s.links.get l).modules.get k) = .broken then some .join else (s.links.get l).poll.get k)
        ∧ (∀ l, (u.links.get l).patternQ = (s.links.get l).patternQ ∧ (u.links.get l).passQ = (s.links.get l).passQ)
        ∧ u.vsb = s.vsb ∧ u.sa = s.sa ∧ u.tu = s.tu ∧ u.pb = s.pb ∧ u.du = s.du ∧ u.cm = s.cm ∧ u.up = t.up))
    ∧ (Asks f 16 [] → answers .setSteerZero .done (afterSteer { s.vsb with pin := { s.vsb.pin with
        reference := s.vsb.pin.counter, referenced := true, phaseErrors := 0, angle := 0 } } t))
    ∧ (Asks f 17 [] → answers .clearTracks .done
      { t with tu := ⟨Row.fill 24 none, bumpAt Stat.trkClears s.tu.stats⟩ })
    ∧ (∀ numbers, numbers.length ≤ 16 → Asks f 18 numbers →
      ((∃ n ∈ numbers, 15 < n.toNat) → answers .clearNotice .badArgument t)
      ∧ ((∀ n ∈ numbers, n.toNat ≤ 15) → ∃ u, answers .clearNotice .done u
        ∧ (∀ i, u.cm.latched.get i = true
            ↔ s.cm.latched.get i = true ∧ ∀ n ∈ numbers, n.toNat ≠ i.val)
        ∧ u.cm.recs = s.cm.recs ∧ u.cm.action = s.cm.action
        ∧ ((∀ i, u.cm.latched.get i = false) →
            u.cm.outstanding = false ∧ u.cm.stats = s.cm.stats ∧ u.up = { t.up with notice := none })
        ∧ ((∃ i, u.cm.latched.get i = true) → u.cm.outstanding = true
            ∧ u.cm.stats = bumpAt (if s.up.notice = none then Stat.cmNotices else Stat.cmNoticesReplaced) s.cm.stats
            ∧ u.up = upStartUp s.mu.strap { t.up with notice := some ⟨noticePayload
                { s.cm with latched := u.cm.latched }, none⟩ })
        ∧ u.vsb = s.vsb ∧ u.sa = s.sa ∧ u.tu = s.tu ∧ u.pb = s.pb ∧ u.links = s.links ∧ u.du = s.du ∧ u.mu = s.mu))
    ∧ (∀ n, Asks f 19 [0, n] → (15 < n.toNat → answers .recoverCondition .badArgument t)
      ∧ ∀ c, n.toNat = (condNo c).val →
        let r := s.cm.recs.get (condNo c)
        let e := s.mu.tables.condition.get (condNo c)
        (r.state ≠ .fault → answers .recoverCondition .done t)
        ∧ (r.state = .fault → condKind c = .level → condRaw c r = true → answers .recoverCondition .refusedState
            { t with cm := { s.cm with stats := bumpAt Stat.cmRecoversRefused s.cm.stats } })
        ∧ (r.state = .fault → condKind c = .level → condRaw c r = false →
            answers .recoverCondition .done (settle c
              (if e.recovery = 0 then
                ⟨{ r with state := .clear, count := 0, persist := none, recover := none }, [.recovering, .clear]⟩
              else ⟨{ r with state := .recovering, recover := timerIn s e.recovery }, [.recovering]⟩) t))
        ∧ (r.state = .fault → condKind c = .event → answers .recoverCondition .done
            (settle c ⟨{ r with state := .recovering, recover := timerIn s e.recovery }, [.recovering]⟩ t)))
    ∧ ∀ a b, Asks f 19 [1, a, b] →
      (1 < a.toNat ∨ 3 < b.toNat → answers .recoverModule .badArgument t)
      ∧ ∀ (l : Link) (k : Slot), a.toNat = linkNo l → b.toNat = k.val →
        (effState (moduleRec s l k) = .absent → answers .recoverModule .refusedState t)
        ∧ (effState (moduleRec s l k) ≠ .absent → answers .recoverModule .done
            (let u := { t with links := s.links.set l (rejoined k (s.links.get l)) }
            if (moduleRec s l k).state = .broken then reportLink l u else u))

/-- Section 9.5, R27, R114, R175, R64, R151 to R154, R146 and R147. The Pattern queues' bound of 5 is R113's. -/
def Obligations.QueuesConfigurationPortAndNoticesStaySound : Prop :=
  (∀ s t : State, QueuesBounded s → step s = .next t → QueuesBounded t)
    ∧ (∀ s t : State, ConfigSound s → step s = .next t → ConfigSound t)
    ∧ (∀ s t : State, PortSound s → step s = .next t → PortSound t)
    ∧ (∀ s t : State, NoticesSound s → step s = .next t → NoticesSound t)
    ∧ ∀ s t : State, DeliverySound s → PatternSound s → step s = .next t → PatternSound t

/-- R123, R124, R128 and R130. -/
def Obligations.DeliveryStaysSound : Prop :=
  ∀ s t : State, DeliverySound s → step s = .next t → DeliverySound t

/-- R138 (a timer runs only in the state that started it) and R140. -/
def Obligations.ConditionRecordsStaySound : Prop :=
  ∀ s t : State, ConditionsSound s → step s = .next t → ConditionsSound t

/-- R35, R27, R54 and R36. -/
def Obligations.TrackTableStaysSound : Prop :=
  ∀ s t : State, KeysDistinct s ∧ TracksSound s → step s = .next t → KeysDistinct t ∧ TracksSound t

/-- R115, and R112 with the windows of R89. A slot a load has marked not present counts as ABSENT (R101, assumption
8). -/
def Obligations.LinksStayAwake : Prop :=
  (∀ s t : State, LinksAwake s → step s = .next t → LinksAwake t)
    ∧ (∀ s t : State, LinkRawsSound s → step s = .next t → LinkRawsSound t)
    ∧ (∀ (t : Tables) (l : Link) (modules : Row 4 ModuleRec),
      let state (k : Slot) : ModuleState :=
        if (modules.get k).treatedAbsent then .absent else (modules.get k).state
      let raws := linkRaws t l modules
      (raws.broken = true ↔ ∃ k, state k = .broken)
      ∧ (raws.selfFallback = true ↔ ∃ k, state k ≠ .absent ∧ (modules.get k).selfFallback = true)
      ∧ (raws.segFailed = true ↔ ∃ k n i, state k ≠ .absent ∧ n ∈ (modules.get k).failed
          ∧ windowSegment ((t.modules.get l).get k) n = some i ∧ (t.segMap.get l).high.get i = false)
      ∧ (raws.overtemp = true ↔ ∃ k, state k ≠ .absent ∧ t.build.overtempBand ≤ (modules.get k).band))
    ∧ ∀ (e : ModuleEntry) (n : Nat) (i : SegNo), windowSegment e n = some i
      ↔ n < e.rowCount * e.columnCount
        ∧ i.val = (e.firstRow + n / e.columnCount) * 24 + (e.firstColumn + n % e.columnCount)
end

