-- ==== Sys2Proof/Laws/Data.lean ====
section
/-! SUPPORT. The small lemmas of the plain data shapes: rows, the pair of links, and saturating counts. -/

namespace Sys2Proof

namespace Row

variable {n : Nat} {α β : Type}

@[simp] theorem get_set_same (r : Row n α) (i : Fin n) (x : α) : (r.set i x).get i = x := by
  simp [get, set]

@[simp] theorem get_set_other (r : Row n α) {i j : Fin n} (x : α) (h : j ≠ i) : (r.set i x).get j = r.get j := by
  have h' : i.val ≠ j.val := fun e => h (Fin.ext e.symm)
  simp [get, set, h']

theorem get_set (r : Row n α) (i j : Fin n) (x : α) : (r.set i x).get j = if j = i then x else r.get j := by
  by_cases h : j = i
  · subst h; simp
  · simp [h]

@[simp] theorem get_modify_same (r : Row n α) (i : Fin n) (f : α → α) : (r.modify i f).get i = f (r.get i) := by
  simp [modify]

@[simp] theorem get_modify_other (r : Row n α) {i j : Fin n} (f : α → α) (h : j ≠ i) :
    (r.modify i f).get j = r.get j := by
  simp [modify, h]

@[simp] theorem get_fill (x : α) (i : Fin n) : (fill n x).get i = x := by
  simp [get, fill]

@[simp] theorem get_map (f : α → β) (r : Row n α) (i : Fin n) : (r.map f).get i = f (r.get i) := by
  simp [get, map]

@[simp] theorem get_tabulate (f : Fin n → α) (i : Fin n) : (tabulate f).get i = f i := by
  simp [get, tabulate]

@[simp] theorem get_mapIdx (f : Fin n → α → β) (r : Row n α) (i : Fin n) : (r.mapIdx f).get i = f i (r.get i) := by
  simp [mapIdx]

/-- A thing stands in a row just where some position holds it. -/
theorem mem_cells (r : Row n α) (x : α) : x ∈ r.cells ↔ ∃ i, r.get i = x := by
  rw [List.mem_iff_getElem]
  constructor
  · rintro ⟨i, h, e⟩
    exact ⟨⟨i, by rw [← r.size]; exact h⟩, by simpa [get] using e⟩
  · rintro ⟨i, e⟩
    exact ⟨i.val, by rw [r.size]; exact i.isLt, by simpa [get] using e⟩

/-- The cells of a row, position by position. -/
theorem cells_eq (r : Row n α) : r.cells = (List.finRange n).map r.get := by
  apply List.ext_getElem
  · simp [r.size]
  · intro i _ _; simp [get]

/-- Counting in a row is counting over its positions. -/
theorem countP_cells (r : Row n α) (p : α → Bool) :
    r.cells.countP p = (List.finRange n).countP fun i => p (r.get i) := by
  rw [cells_eq, List.countP_map]; rfl

/-- Two rows that agree at every position are equal. -/
theorem ext_get {r s : Row n α} (h : ∀ i, r.get i = s.get i) : r = s := by
  cases r with
  | mk a ha =>
    cases s with
    | mk b hb =>
      have : a = b := by
        apply List.ext_getElem (by rw [ha, hb])
        intro i h1 _
        exact h ⟨i, by rw [← ha]; exact h1⟩
      subst this
      rfl

/-- The last of two writes at one position stands. -/
theorem set_set (r : Row n α) (i : Fin n) (x y : α) : (r.set i x).set i y = r.set i y := by
  apply ext_get
  intro j
  by_cases h : j = i <;> simp [h]

/-- Writing what already stands changes nothing. -/
theorem set_of_get (r : Row n α) (i : Fin n) (x : α) (h : r.get i = x) : r.set i x = r := by
  apply ext_get
  intro j
  by_cases hj : j = i
  · subst hj; simp [h]
  · simp [hj]

/-- Two changes at one position are one. -/
theorem modify_modify (r : Row n α) (i : Fin n) (f g : α → α) :
    (r.modify i f).modify i g = r.modify i fun x => g (f x) := by
  simp [modify, set_set]

end Row

namespace Both

variable {α : Type}

@[simp] theorem get_set_same (b : Both α) (l : Link) (x : α) : (b.set l x).get l = x := by
  cases l <;> rfl

@[simp] theorem get_set_other (b : Both α) {l m : Link} (x : α) (h : m ≠ l) : (b.set l x).get m = b.get m := by
  cases l <;> cases m <;> first | rfl | exact absurd rfl h

@[simp] theorem set_get_same (b : Both α) (l : Link) : b.set l (b.get l) = b := by
  cases l <;> rfl

@[simp] theorem set_set_same (b : Both α) (l : Link) (x y : α) : (b.set l x).set l y = b.set l y := by
  cases l <;> rfl

@[simp] theorem get_left (b : Both α) : b.get .left = b.left := rfl

@[simp] theorem get_right (b : Both α) : b.get .right = b.right := rfl

/-- Two pairs that agree on both links are equal. -/
theorem ext_get {a b : Both α} (h : ∀ l, a.get l = b.get l) : a = b := by
  have hl := h .left
  have hr := h .right
  cases a
  cases b
  simp_all [get]

end Both

namespace Machine

/-- A count never passes 65535. -/
theorem bump_le (n : Nat) : bump n ≤ 65535 := by
  unfold bump
  omega

/-- A row of statistics with one counter one up, counter by counter. -/
theorem bumpAt_get {k : Nat} (i j : Fin k) (stats : Row k Nat) :
    (bumpAt i stats).get j = if j = i then bump (stats.get j) else stats.get j := by
  unfold bumpAt
  by_cases h : j = i
  · subst h; simp
  · simp [h]

end Machine

end Sys2Proof
end

