-- ==== Sys2Proof/Laws/State.lean ====
section
/-! SUPPORT. Each named update of the state, field by field: what it leaves, and the one thing it changes. -/

namespace Sys2Proof.Machine

/-! ## sendLevel -/

@[simp] theorem sendLevel_now (c : Cond) (l : Option Link) (v : Bool) (s : State) : (sendLevel c l v s).now = s.now := rfl
@[simp] theorem sendLevel_inReset (c : Cond) (l : Option Link) (v : Bool) (s : State) : (sendLevel c l v s).inReset = s.inReset := rfl
@[simp] theorem sendLevel_sta (c : Cond) (l : Option Link) (v : Bool) (s : State) : (sendLevel c l v s).sta = s.sta := rfl
@[simp] theorem sendLevel_stb (c : Cond) (l : Option Link) (v : Bool) (s : State) : (sendLevel c l v s).stb = s.stb := rfl
@[simp] theorem sendLevel_vsb (c : Cond) (l : Option Link) (v : Bool) (s : State) : (sendLevel c l v s).vsb = s.vsb := rfl
@[simp] theorem sendLevel_sa (c : Cond) (l : Option Link) (v : Bool) (s : State) : (sendLevel c l v s).sa = s.sa := rfl
@[simp] theorem sendLevel_tu (c : Cond) (l : Option Link) (v : Bool) (s : State) : (sendLevel c l v s).tu = s.tu := rfl
@[simp] theorem sendLevel_pb (c : Cond) (l : Option Link) (v : Bool) (s : State) : (sendLevel c l v s).pb = s.pb := rfl
@[simp] theorem sendLevel_links (c : Cond) (l : Option Link) (v : Bool) (s : State) : (sendLevel c l v s).links = s.links := rfl
@[simp] theorem sendLevel_du (c : Cond) (l : Option Link) (v : Bool) (s : State) : (sendLevel c l v s).du = s.du := rfl
@[simp] theorem sendLevel_cm (c : Cond) (l : Option Link) (v : Bool) (s : State) : (sendLevel c l v s).cm = s.cm := rfl
@[simp] theorem sendLevel_up (c : Cond) (l : Option Link) (v : Bool) (s : State) : (sendLevel c l v s).up = s.up := rfl
@[simp] theorem sendLevel_mu (c : Cond) (l : Option Link) (v : Bool) (s : State) : (sendLevel c l v s).mu = s.mu := rfl
@[simp] theorem sendLevel_pending (c : Cond) (l : Option Link) (v : Bool) (s : State) : (sendLevel c l v s).pending = s.pending := rfl

/-! ## sendEvent -/

@[simp] theorem sendEvent_now (c : Cond) (s : State) : (sendEvent c s).now = s.now := rfl
@[simp] theorem sendEvent_inReset (c : Cond) (s : State) : (sendEvent c s).inReset = s.inReset := rfl
@[simp] theorem sendEvent_sta (c : Cond) (s : State) : (sendEvent c s).sta = s.sta := rfl
@[simp] theorem sendEvent_stb (c : Cond) (s : State) : (sendEvent c s).stb = s.stb := rfl
@[simp] theorem sendEvent_vsb (c : Cond) (s : State) : (sendEvent c s).vsb = s.vsb := rfl
@[simp] theorem sendEvent_sa (c : Cond) (s : State) : (sendEvent c s).sa = s.sa := rfl
@[simp] theorem sendEvent_tu (c : Cond) (s : State) : (sendEvent c s).tu = s.tu := rfl
@[simp] theorem sendEvent_pb (c : Cond) (s : State) : (sendEvent c s).pb = s.pb := rfl
@[simp] theorem sendEvent_links (c : Cond) (s : State) : (sendEvent c s).links = s.links := rfl
@[simp] theorem sendEvent_du (c : Cond) (s : State) : (sendEvent c s).du = s.du := rfl
@[simp] theorem sendEvent_cm (c : Cond) (s : State) : (sendEvent c s).cm = s.cm := rfl
@[simp] theorem sendEvent_up (c : Cond) (s : State) : (sendEvent c s).up = s.up := rfl
@[simp] theorem sendEvent_mu (c : Cond) (s : State) : (sendEvent c s).mu = s.mu := rfl
@[simp] theorem sendEvent_pending (c : Cond) (s : State) : (sendEvent c s).pending = s.pending := rfl

/-! ## reselectSpeed -/

@[simp] theorem reselectSpeed_now (s : State) : (reselectSpeed s).now = s.now := rfl
@[simp] theorem reselectSpeed_inReset (s : State) : (reselectSpeed s).inReset = s.inReset := rfl
@[simp] theorem reselectSpeed_sta (s : State) : (reselectSpeed s).sta = s.sta := rfl
@[simp] theorem reselectSpeed_stb (s : State) : (reselectSpeed s).stb = s.stb := rfl
@[simp] theorem reselectSpeed_sa (s : State) : (reselectSpeed s).sa = s.sa := rfl
@[simp] theorem reselectSpeed_tu (s : State) : (reselectSpeed s).tu = s.tu := rfl
@[simp] theorem reselectSpeed_pb (s : State) : (reselectSpeed s).pb = s.pb := rfl
@[simp] theorem reselectSpeed_links (s : State) : (reselectSpeed s).links = s.links := rfl
@[simp] theorem reselectSpeed_du (s : State) : (reselectSpeed s).du = s.du := rfl
@[simp] theorem reselectSpeed_cm (s : State) : (reselectSpeed s).cm = s.cm := rfl
@[simp] theorem reselectSpeed_up (s : State) : (reselectSpeed s).up = s.up := rfl
@[simp] theorem reselectSpeed_mu (s : State) : (reselectSpeed s).mu = s.mu := rfl
@[simp] theorem reselectSpeed_mail (s : State) : (reselectSpeed s).mail = s.mail := rfl
@[simp] theorem reselectSpeed_pending (s : State) : (reselectSpeed s).pending = s.pending := rfl

/-! ## reselectSteer -/

@[simp] theorem reselectSteer_now (s : State) : (reselectSteer s).now = s.now := rfl
@[simp] theorem reselectSteer_inReset (s : State) : (reselectSteer s).inReset = s.inReset := rfl
@[simp] theorem reselectSteer_sta (s : State) : (reselectSteer s).sta = s.sta := rfl
@[simp] theorem reselectSteer_stb (s : State) : (reselectSteer s).stb = s.stb := rfl
@[simp] theorem reselectSteer_sa (s : State) : (reselectSteer s).sa = s.sa := rfl
@[simp] theorem reselectSteer_tu (s : State) : (reselectSteer s).tu = s.tu := rfl
@[simp] theorem reselectSteer_pb (s : State) : (reselectSteer s).pb = s.pb := rfl
@[simp] theorem reselectSteer_links (s : State) : (reselectSteer s).links = s.links := rfl
@[simp] theorem reselectSteer_du (s : State) : (reselectSteer s).du = s.du := rfl
@[simp] theorem reselectSteer_cm (s : State) : (reselectSteer s).cm = s.cm := rfl
@[simp] theorem reselectSteer_up (s : State) : (reselectSteer s).up = s.up := rfl
@[simp] theorem reselectSteer_mu (s : State) : (reselectSteer s).mu = s.mu := rfl
@[simp] theorem reselectSteer_mail (s : State) : (reselectSteer s).mail = s.mail := rfl
@[simp] theorem reselectSteer_pending (s : State) : (reselectSteer s).pending = s.pending := rfl

/-! ## updLink -/

@[simp] theorem updLink_now (l : Link) (f : Slc → Slc) (s : State) : (updLink l f s).now = s.now := rfl
@[simp] theorem updLink_inReset (l : Link) (f : Slc → Slc) (s : State) : (updLink l f s).inReset = s.inReset := rfl
@[simp] theorem updLink_sta (l : Link) (f : Slc → Slc) (s : State) : (updLink l f s).sta = s.sta := rfl
@[simp] theorem updLink_stb (l : Link) (f : Slc → Slc) (s : State) : (updLink l f s).stb = s.stb := rfl
@[simp] theorem updLink_vsb (l : Link) (f : Slc → Slc) (s : State) : (updLink l f s).vsb = s.vsb := rfl
@[simp] theorem updLink_sa (l : Link) (f : Slc → Slc) (s : State) : (updLink l f s).sa = s.sa := rfl
@[simp] theorem updLink_tu (l : Link) (f : Slc → Slc) (s : State) : (updLink l f s).tu = s.tu := rfl
@[simp] theorem updLink_pb (l : Link) (f : Slc → Slc) (s : State) : (updLink l f s).pb = s.pb := rfl
@[simp] theorem updLink_du (l : Link) (f : Slc → Slc) (s : State) : (updLink l f s).du = s.du := rfl
@[simp] theorem updLink_cm (l : Link) (f : Slc → Slc) (s : State) : (updLink l f s).cm = s.cm := rfl
@[simp] theorem updLink_up (l : Link) (f : Slc → Slc) (s : State) : (updLink l f s).up = s.up := rfl
@[simp] theorem updLink_mu (l : Link) (f : Slc → Slc) (s : State) : (updLink l f s).mu = s.mu := rfl
@[simp] theorem updLink_mail (l : Link) (f : Slc → Slc) (s : State) : (updLink l f s).mail = s.mail := rfl
@[simp] theorem updLink_pending (l : Link) (f : Slc → Slc) (s : State) : (updLink l f s).pending = s.pending := rfl

/-! ## wake -/

@[simp] theorem wake_now (l : Link) (s : State) : (wake l s).now = s.now := rfl
@[simp] theorem wake_inReset (l : Link) (s : State) : (wake l s).inReset = s.inReset := rfl
@[simp] theorem wake_sta (l : Link) (s : State) : (wake l s).sta = s.sta := rfl
@[simp] theorem wake_stb (l : Link) (s : State) : (wake l s).stb = s.stb := rfl
@[simp] theorem wake_vsb (l : Link) (s : State) : (wake l s).vsb = s.vsb := rfl
@[simp] theorem wake_sa (l : Link) (s : State) : (wake l s).sa = s.sa := rfl
@[simp] theorem wake_tu (l : Link) (s : State) : (wake l s).tu = s.tu := rfl
@[simp] theorem wake_pb (l : Link) (s : State) : (wake l s).pb = s.pb := rfl
@[simp] theorem wake_du (l : Link) (s : State) : (wake l s).du = s.du := rfl
@[simp] theorem wake_cm (l : Link) (s : State) : (wake l s).cm = s.cm := rfl
@[simp] theorem wake_up (l : Link) (s : State) : (wake l s).up = s.up := rfl
@[simp] theorem wake_mu (l : Link) (s : State) : (wake l s).mu = s.mu := rfl
@[simp] theorem wake_mail (l : Link) (s : State) : (wake l s).mail = s.mail := rfl
@[simp] theorem wake_pending (l : Link) (s : State) : (wake l s).pending = s.pending := rfl

/-! ## upStart -/

@[simp] theorem upStart_now (s : State) : (upStart s).now = s.now := rfl
@[simp] theorem upStart_inReset (s : State) : (upStart s).inReset = s.inReset := rfl
@[simp] theorem upStart_sta (s : State) : (upStart s).sta = s.sta := rfl
@[simp] theorem upStart_stb (s : State) : (upStart s).stb = s.stb := rfl
@[simp] theorem upStart_vsb (s : State) : (upStart s).vsb = s.vsb := rfl
@[simp] theorem upStart_sa (s : State) : (upStart s).sa = s.sa := rfl
@[simp] theorem upStart_tu (s : State) : (upStart s).tu = s.tu := rfl
@[simp] theorem upStart_pb (s : State) : (upStart s).pb = s.pb := rfl
@[simp] theorem upStart_links (s : State) : (upStart s).links = s.links := rfl
@[simp] theorem upStart_du (s : State) : (upStart s).du = s.du := rfl
@[simp] theorem upStart_cm (s : State) : (upStart s).cm = s.cm := rfl
@[simp] theorem upStart_mu (s : State) : (upStart s).mu = s.mu := rfl
@[simp] theorem upStart_mail (s : State) : (upStart s).mail = s.mail := rfl
@[simp] theorem upStart_pending (s : State) : (upStart s).pending = s.pending := rfl

/-! ## updModule -/

@[simp] theorem updModule_now (l : Link) (k : Slot) (f : ModuleRec → ModuleRec) (s : State) : (updModule l k f s).now = s.now := rfl
@[simp] theorem updModule_inReset (l : Link) (k : Slot) (f : ModuleRec → ModuleRec) (s : State) : (updModule l k f s).inReset = s.inReset := rfl
@[simp] theorem updModule_sta (l : Link) (k : Slot) (f : ModuleRec → ModuleRec) (s : State) : (updModule l k f s).sta = s.sta := rfl
@[simp] theorem updModule_stb (l : Link) (k : Slot) (f : ModuleRec → ModuleRec) (s : State) : (updModule l k f s).stb = s.stb := rfl
@[simp] theorem updModule_vsb (l : Link) (k : Slot) (f : ModuleRec → ModuleRec) (s : State) : (updModule l k f s).vsb = s.vsb := rfl
@[simp] theorem updModule_sa (l : Link) (k : Slot) (f : ModuleRec → ModuleRec) (s : State) : (updModule l k f s).sa = s.sa := rfl
@[simp] theorem updModule_tu (l : Link) (k : Slot) (f : ModuleRec → ModuleRec) (s : State) : (updModule l k f s).tu = s.tu := rfl
@[simp] theorem updModule_pb (l : Link) (k : Slot) (f : ModuleRec → ModuleRec) (s : State) : (updModule l k f s).pb = s.pb := rfl
@[simp] theorem updModule_du (l : Link) (k : Slot) (f : ModuleRec → ModuleRec) (s : State) : (updModule l k f s).du = s.du := rfl
@[simp] theorem updModule_cm (l : Link) (k : Slot) (f : ModuleRec → ModuleRec) (s : State) : (updModule l k f s).cm = s.cm := rfl
@[simp] theorem updModule_up (l : Link) (k : Slot) (f : ModuleRec → ModuleRec) (s : State) : (updModule l k f s).up = s.up := rfl
@[simp] theorem updModule_mu (l : Link) (k : Slot) (f : ModuleRec → ModuleRec) (s : State) : (updModule l k f s).mu = s.mu := rfl
@[simp] theorem updModule_mail (l : Link) (k : Slot) (f : ModuleRec → ModuleRec) (s : State) : (updModule l k f s).mail = s.mail := rfl
@[simp] theorem updModule_pending (l : Link) (k : Slot) (f : ModuleRec → ModuleRec) (s : State) : (updModule l k f s).pending = s.pending := rfl

/-! ## countLink -/

@[simp] theorem countLink_now (l : Link) (i : Fin 13) (s : State) : (countLink l i s).now = s.now := rfl
@[simp] theorem countLink_inReset (l : Link) (i : Fin 13) (s : State) : (countLink l i s).inReset = s.inReset := rfl
@[simp] theorem countLink_sta (l : Link) (i : Fin 13) (s : State) : (countLink l i s).sta = s.sta := rfl
@[simp] theorem countLink_stb (l : Link) (i : Fin 13) (s : State) : (countLink l i s).stb = s.stb := rfl
@[simp] theorem countLink_vsb (l : Link) (i : Fin 13) (s : State) : (countLink l i s).vsb = s.vsb := rfl
@[simp] theorem countLink_sa (l : Link) (i : Fin 13) (s : State) : (countLink l i s).sa = s.sa := rfl
@[simp] theorem countLink_tu (l : Link) (i : Fin 13) (s : State) : (countLink l i s).tu = s.tu := rfl
@[simp] theorem countLink_pb (l : Link) (i : Fin 13) (s : State) : (countLink l i s).pb = s.pb := rfl
@[simp] theorem countLink_du (l : Link) (i : Fin 13) (s : State) : (countLink l i s).du = s.du := rfl
@[simp] theorem countLink_cm (l : Link) (i : Fin 13) (s : State) : (countLink l i s).cm = s.cm := rfl
@[simp] theorem countLink_up (l : Link) (i : Fin 13) (s : State) : (countLink l i s).up = s.up := rfl
@[simp] theorem countLink_mu (l : Link) (i : Fin 13) (s : State) : (countLink l i s).mu = s.mu := rfl
@[simp] theorem countLink_mail (l : Link) (i : Fin 13) (s : State) : (countLink l i s).mail = s.mail := rfl
@[simp] theorem countLink_pending (l : Link) (i : Fin 13) (s : State) : (countLink l i s).pending = s.pending := rfl

/-! ## grantNext -/

@[simp] theorem grantNext_now (l : Link) (s : State) : (grantNext l s).now = s.now := rfl
@[simp] theorem grantNext_inReset (l : Link) (s : State) : (grantNext l s).inReset = s.inReset := rfl
@[simp] theorem grantNext_sta (l : Link) (s : State) : (grantNext l s).sta = s.sta := rfl
@[simp] theorem grantNext_stb (l : Link) (s : State) : (grantNext l s).stb = s.stb := rfl
@[simp] theorem grantNext_vsb (l : Link) (s : State) : (grantNext l s).vsb = s.vsb := rfl
@[simp] theorem grantNext_sa (l : Link) (s : State) : (grantNext l s).sa = s.sa := rfl
@[simp] theorem grantNext_tu (l : Link) (s : State) : (grantNext l s).tu = s.tu := rfl
@[simp] theorem grantNext_pb (l : Link) (s : State) : (grantNext l s).pb = s.pb := rfl
@[simp] theorem grantNext_du (l : Link) (s : State) : (grantNext l s).du = s.du := rfl
@[simp] theorem grantNext_cm (l : Link) (s : State) : (grantNext l s).cm = s.cm := rfl
@[simp] theorem grantNext_up (l : Link) (s : State) : (grantNext l s).up = s.up := rfl
@[simp] theorem grantNext_mu (l : Link) (s : State) : (grantNext l s).mu = s.mu := rfl
@[simp] theorem grantNext_mail (l : Link) (s : State) : (grantNext l s).mail = s.mail := rfl
@[simp] theorem grantNext_pending (l : Link) (s : State) : (grantNext l s).pending = s.pending := rfl

/-! ## grantAtWake -/

@[simp] theorem grantAtWake_now (l : Link) (s : State) : (grantAtWake l s).now = s.now := rfl
@[simp] theorem grantAtWake_inReset (l : Link) (s : State) : (grantAtWake l s).inReset = s.inReset := rfl
@[simp] theorem grantAtWake_sta (l : Link) (s : State) : (grantAtWake l s).sta = s.sta := rfl
@[simp] theorem grantAtWake_stb (l : Link) (s : State) : (grantAtWake l s).stb = s.stb := rfl
@[simp] theorem grantAtWake_vsb (l : Link) (s : State) : (grantAtWake l s).vsb = s.vsb := rfl
@[simp] theorem grantAtWake_sa (l : Link) (s : State) : (grantAtWake l s).sa = s.sa := rfl
@[simp] theorem grantAtWake_tu (l : Link) (s : State) : (grantAtWake l s).tu = s.tu := rfl
@[simp] theorem grantAtWake_pb (l : Link) (s : State) : (grantAtWake l s).pb = s.pb := rfl
@[simp] theorem grantAtWake_du (l : Link) (s : State) : (grantAtWake l s).du = s.du := rfl
@[simp] theorem grantAtWake_cm (l : Link) (s : State) : (grantAtWake l s).cm = s.cm := rfl
@[simp] theorem grantAtWake_up (l : Link) (s : State) : (grantAtWake l s).up = s.up := rfl
@[simp] theorem grantAtWake_mu (l : Link) (s : State) : (grantAtWake l s).mu = s.mu := rfl
@[simp] theorem grantAtWake_mail (l : Link) (s : State) : (grantAtWake l s).mail = s.mail := rfl
@[simp] theorem grantAtWake_pending (l : Link) (s : State) : (grantAtWake l s).pending = s.pending := rfl

/-! ## placePattern -/

@[simp] theorem placePattern_now (l : Link) (fs : List PatternFrame) (s : State) : (placePattern l fs s).now = s.now := rfl
@[simp] theorem placePattern_inReset (l : Link) (fs : List PatternFrame) (s : State) : (placePattern l fs s).inReset = s.inReset := rfl
@[simp] theorem placePattern_sta (l : Link) (fs : List PatternFrame) (s : State) : (placePattern l fs s).sta = s.sta := rfl
@[simp] theorem placePattern_stb (l : Link) (fs : List PatternFrame) (s : State) : (placePattern l fs s).stb = s.stb := rfl
@[simp] theorem placePattern_vsb (l : Link) (fs : List PatternFrame) (s : State) : (placePattern l fs s).vsb = s.vsb := rfl
@[simp] theorem placePattern_sa (l : Link) (fs : List PatternFrame) (s : State) : (placePattern l fs s).sa = s.sa := rfl
@[simp] theorem placePattern_tu (l : Link) (fs : List PatternFrame) (s : State) : (placePattern l fs s).tu = s.tu := rfl
@[simp] theorem placePattern_pb (l : Link) (fs : List PatternFrame) (s : State) : (placePattern l fs s).pb = s.pb := rfl
@[simp] theorem placePattern_du (l : Link) (fs : List PatternFrame) (s : State) : (placePattern l fs s).du = s.du := rfl
@[simp] theorem placePattern_cm (l : Link) (fs : List PatternFrame) (s : State) : (placePattern l fs s).cm = s.cm := rfl
@[simp] theorem placePattern_up (l : Link) (fs : List PatternFrame) (s : State) : (placePattern l fs s).up = s.up := rfl
@[simp] theorem placePattern_mu (l : Link) (fs : List PatternFrame) (s : State) : (placePattern l fs s).mu = s.mu := rfl
@[simp] theorem placePattern_mail (l : Link) (fs : List PatternFrame) (s : State) : (placePattern l fs s).mail = s.mail := rfl
@[simp] theorem placePattern_pending (l : Link) (fs : List PatternFrame) (s : State) : (placePattern l fs s).pending = s.pending := rfl

/-! ## countVehicle -/

@[simp] theorem countVehicle_now (i : Fin 7) (s : State) : (countVehicle i s).now = s.now := rfl
@[simp] theorem countVehicle_inReset (i : Fin 7) (s : State) : (countVehicle i s).inReset = s.inReset := rfl
@[simp] theorem countVehicle_sta (i : Fin 7) (s : State) : (countVehicle i s).sta = s.sta := rfl
@[simp] theorem countVehicle_stb (i : Fin 7) (s : State) : (countVehicle i s).stb = s.stb := rfl
@[simp] theorem countVehicle_sa (i : Fin 7) (s : State) : (countVehicle i s).sa = s.sa := rfl
@[simp] theorem countVehicle_tu (i : Fin 7) (s : State) : (countVehicle i s).tu = s.tu := rfl
@[simp] theorem countVehicle_pb (i : Fin 7) (s : State) : (countVehicle i s).pb = s.pb := rfl
@[simp] theorem countVehicle_links (i : Fin 7) (s : State) : (countVehicle i s).links = s.links := rfl
@[simp] theorem countVehicle_du (i : Fin 7) (s : State) : (countVehicle i s).du = s.du := rfl
@[simp] theorem countVehicle_cm (i : Fin 7) (s : State) : (countVehicle i s).cm = s.cm := rfl
@[simp] theorem countVehicle_up (i : Fin 7) (s : State) : (countVehicle i s).up = s.up := rfl
@[simp] theorem countVehicle_mu (i : Fin 7) (s : State) : (countVehicle i s).mu = s.mu := rfl
@[simp] theorem countVehicle_mail (i : Fin 7) (s : State) : (countVehicle i s).mail = s.mail := rfl
@[simp] theorem countVehicle_pending (i : Fin 7) (s : State) : (countVehicle i s).pending = s.pending := rfl

/-! ## countScene -/

@[simp] theorem countScene_now (i : Fin 11) (s : State) : (countScene i s).now = s.now := rfl
@[simp] theorem countScene_inReset (i : Fin 11) (s : State) : (countScene i s).inReset = s.inReset := rfl
@[simp] theorem countScene_sta (i : Fin 11) (s : State) : (countScene i s).sta = s.sta := rfl
@[simp] theorem countScene_stb (i : Fin 11) (s : State) : (countScene i s).stb = s.stb := rfl
@[simp] theorem countScene_vsb (i : Fin 11) (s : State) : (countScene i s).vsb = s.vsb := rfl
@[simp] theorem countScene_tu (i : Fin 11) (s : State) : (countScene i s).tu = s.tu := rfl
@[simp] theorem countScene_pb (i : Fin 11) (s : State) : (countScene i s).pb = s.pb := rfl
@[simp] theorem countScene_links (i : Fin 11) (s : State) : (countScene i s).links = s.links := rfl
@[simp] theorem countScene_du (i : Fin 11) (s : State) : (countScene i s).du = s.du := rfl
@[simp] theorem countScene_cm (i : Fin 11) (s : State) : (countScene i s).cm = s.cm := rfl
@[simp] theorem countScene_up (i : Fin 11) (s : State) : (countScene i s).up = s.up := rfl
@[simp] theorem countScene_mu (i : Fin 11) (s : State) : (countScene i s).mu = s.mu := rfl
@[simp] theorem countScene_mail (i : Fin 11) (s : State) : (countScene i s).mail = s.mail := rfl
@[simp] theorem countScene_pending (i : Fin 11) (s : State) : (countScene i s).pending = s.pending := rfl

/-! ## countPort -/

@[simp] theorem countPort_now (i : Fin 19) (s : State) : (countPort i s).now = s.now := rfl
@[simp] theorem countPort_inReset (i : Fin 19) (s : State) : (countPort i s).inReset = s.inReset := rfl
@[simp] theorem countPort_sta (i : Fin 19) (s : State) : (countPort i s).sta = s.sta := rfl
@[simp] theorem countPort_stb (i : Fin 19) (s : State) : (countPort i s).stb = s.stb := rfl
@[simp] theorem countPort_vsb (i : Fin 19) (s : State) : (countPort i s).vsb = s.vsb := rfl
@[simp] theorem countPort_sa (i : Fin 19) (s : State) : (countPort i s).sa = s.sa := rfl
@[simp] theorem countPort_tu (i : Fin 19) (s : State) : (countPort i s).tu = s.tu := rfl
@[simp] theorem countPort_pb (i : Fin 19) (s : State) : (countPort i s).pb = s.pb := rfl
@[simp] theorem countPort_links (i : Fin 19) (s : State) : (countPort i s).links = s.links := rfl
@[simp] theorem countPort_du (i : Fin 19) (s : State) : (countPort i s).du = s.du := rfl
@[simp] theorem countPort_cm (i : Fin 19) (s : State) : (countPort i s).cm = s.cm := rfl
@[simp] theorem countPort_mu (i : Fin 19) (s : State) : (countPort i s).mu = s.mu := rfl
@[simp] theorem countPort_mail (i : Fin 19) (s : State) : (countPort i s).mail = s.mail := rfl
@[simp] theorem countPort_pending (i : Fin 19) (s : State) : (countPort i s).pending = s.pending := rfl

/-! ## countDelivery -/

@[simp] theorem countDelivery_now (i : Fin 9) (s : State) : (countDelivery i s).now = s.now := rfl
@[simp] theorem countDelivery_inReset (i : Fin 9) (s : State) : (countDelivery i s).inReset = s.inReset := rfl
@[simp] theorem countDelivery_sta (i : Fin 9) (s : State) : (countDelivery i s).sta = s.sta := rfl
@[simp] theorem countDelivery_stb (i : Fin 9) (s : State) : (countDelivery i s).stb = s.stb := rfl
@[simp] theorem countDelivery_vsb (i : Fin 9) (s : State) : (countDelivery i s).vsb = s.vsb := rfl
@[simp] theorem countDelivery_sa (i : Fin 9) (s : State) : (countDelivery i s).sa = s.sa := rfl
@[simp] theorem countDelivery_tu (i : Fin 9) (s : State) : (countDelivery i s).tu = s.tu := rfl
@[simp] theorem countDelivery_pb (i : Fin 9) (s : State) : (countDelivery i s).pb = s.pb := rfl
@[simp] theorem countDelivery_links (i : Fin 9) (s : State) : (countDelivery i s).links = s.links := rfl
@[simp] theorem countDelivery_cm (i : Fin 9) (s : State) : (countDelivery i s).cm = s.cm := rfl
@[simp] theorem countDelivery_up (i : Fin 9) (s : State) : (countDelivery i s).up = s.up := rfl
@[simp] theorem countDelivery_mu (i : Fin 9) (s : State) : (countDelivery i s).mu = s.mu := rfl
@[simp] theorem countDelivery_mail (i : Fin 9) (s : State) : (countDelivery i s).mail = s.mail := rfl
@[simp] theorem countDelivery_pending (i : Fin 9) (s : State) : (countDelivery i s).pending = s.pending := rfl

/-! ## countManagement -/

@[simp] theorem countManagement_now (i : Fin 4) (s : State) : (countManagement i s).now = s.now := rfl
@[simp] theorem countManagement_inReset (i : Fin 4) (s : State) : (countManagement i s).inReset = s.inReset := rfl
@[simp] theorem countManagement_sta (i : Fin 4) (s : State) : (countManagement i s).sta = s.sta := rfl
@[simp] theorem countManagement_stb (i : Fin 4) (s : State) : (countManagement i s).stb = s.stb := rfl
@[simp] theorem countManagement_vsb (i : Fin 4) (s : State) : (countManagement i s).vsb = s.vsb := rfl
@[simp] theorem countManagement_sa (i : Fin 4) (s : State) : (countManagement i s).sa = s.sa := rfl
@[simp] theorem countManagement_tu (i : Fin 4) (s : State) : (countManagement i s).tu = s.tu := rfl
@[simp] theorem countManagement_pb (i : Fin 4) (s : State) : (countManagement i s).pb = s.pb := rfl
@[simp] theorem countManagement_links (i : Fin 4) (s : State) : (countManagement i s).links = s.links := rfl
@[simp] theorem countManagement_du (i : Fin 4) (s : State) : (countManagement i s).du = s.du := rfl
@[simp] theorem countManagement_cm (i : Fin 4) (s : State) : (countManagement i s).cm = s.cm := rfl
@[simp] theorem countManagement_up (i : Fin 4) (s : State) : (countManagement i s).up = s.up := rfl
@[simp] theorem countManagement_mail (i : Fin 4) (s : State) : (countManagement i s).mail = s.mail := rfl
@[simp] theorem countManagement_pending (i : Fin 4) (s : State) : (countManagement i s).pending = s.pending := rfl

/-! ## clearTable -/

@[simp] theorem clearTable_now (s : State) : (clearTable s).now = s.now := rfl
@[simp] theorem clearTable_inReset (s : State) : (clearTable s).inReset = s.inReset := rfl
@[simp] theorem clearTable_sta (s : State) : (clearTable s).sta = s.sta := rfl
@[simp] theorem clearTable_stb (s : State) : (clearTable s).stb = s.stb := rfl
@[simp] theorem clearTable_vsb (s : State) : (clearTable s).vsb = s.vsb := rfl
@[simp] theorem clearTable_sa (s : State) : (clearTable s).sa = s.sa := rfl
@[simp] theorem clearTable_pb (s : State) : (clearTable s).pb = s.pb := rfl
@[simp] theorem clearTable_links (s : State) : (clearTable s).links = s.links := rfl
@[simp] theorem clearTable_du (s : State) : (clearTable s).du = s.du := rfl
@[simp] theorem clearTable_cm (s : State) : (clearTable s).cm = s.cm := rfl
@[simp] theorem clearTable_up (s : State) : (clearTable s).up = s.up := rfl
@[simp] theorem clearTable_mu (s : State) : (clearTable s).mu = s.mu := rfl
@[simp] theorem clearTable_mail (s : State) : (clearTable s).mail = s.mail := rfl
@[simp] theorem clearTable_pending (s : State) : (clearTable s).pending = s.pending := rfl

/-! ## cmApplied -/

@[simp] theorem cmApplied_now (m : Mode) (s : State) : (cmApplied m s).now = s.now := rfl
@[simp] theorem cmApplied_inReset (m : Mode) (s : State) : (cmApplied m s).inReset = s.inReset := rfl
@[simp] theorem cmApplied_sta (m : Mode) (s : State) : (cmApplied m s).sta = s.sta := rfl
@[simp] theorem cmApplied_stb (m : Mode) (s : State) : (cmApplied m s).stb = s.stb := rfl
@[simp] theorem cmApplied_vsb (m : Mode) (s : State) : (cmApplied m s).vsb = s.vsb := rfl
@[simp] theorem cmApplied_sa (m : Mode) (s : State) : (cmApplied m s).sa = s.sa := rfl
@[simp] theorem cmApplied_tu (m : Mode) (s : State) : (cmApplied m s).tu = s.tu := rfl
@[simp] theorem cmApplied_pb (m : Mode) (s : State) : (cmApplied m s).pb = s.pb := rfl
@[simp] theorem cmApplied_links (m : Mode) (s : State) : (cmApplied m s).links = s.links := rfl
@[simp] theorem cmApplied_du (m : Mode) (s : State) : (cmApplied m s).du = s.du := rfl
@[simp] theorem cmApplied_up (m : Mode) (s : State) : (cmApplied m s).up = s.up := rfl
@[simp] theorem cmApplied_mu (m : Mode) (s : State) : (cmApplied m s).mu = s.mu := rfl
@[simp] theorem cmApplied_mail (m : Mode) (s : State) : (cmApplied m s).mail = s.mail := rfl
@[simp] theorem cmApplied_pending (m : Mode) (s : State) : (cmApplied m s).pending = s.pending := rfl

/-! ## dropBlocks -/

@[simp] theorem dropBlocks_now (g : Byte) (l : Link) (s : State) : (dropBlocks g l s).now = s.now := rfl
@[simp] theorem dropBlocks_inReset (g : Byte) (l : Link) (s : State) : (dropBlocks g l s).inReset = s.inReset := rfl
@[simp] theorem dropBlocks_sta (g : Byte) (l : Link) (s : State) : (dropBlocks g l s).sta = s.sta := rfl
@[simp] theorem dropBlocks_stb (g : Byte) (l : Link) (s : State) : (dropBlocks g l s).stb = s.stb := rfl
@[simp] theorem dropBlocks_vsb (g : Byte) (l : Link) (s : State) : (dropBlocks g l s).vsb = s.vsb := rfl
@[simp] theorem dropBlocks_sa (g : Byte) (l : Link) (s : State) : (dropBlocks g l s).sa = s.sa := rfl
@[simp] theorem dropBlocks_tu (g : Byte) (l : Link) (s : State) : (dropBlocks g l s).tu = s.tu := rfl
@[simp] theorem dropBlocks_pb (g : Byte) (l : Link) (s : State) : (dropBlocks g l s).pb = s.pb := rfl
@[simp] theorem dropBlocks_du (g : Byte) (l : Link) (s : State) : (dropBlocks g l s).du = s.du := rfl
@[simp] theorem dropBlocks_cm (g : Byte) (l : Link) (s : State) : (dropBlocks g l s).cm = s.cm := rfl
@[simp] theorem dropBlocks_up (g : Byte) (l : Link) (s : State) : (dropBlocks g l s).up = s.up := rfl
@[simp] theorem dropBlocks_mu (g : Byte) (l : Link) (s : State) : (dropBlocks g l s).mu = s.mu := rfl
@[simp] theorem dropBlocks_mail (g : Byte) (l : Link) (s : State) : (dropBlocks g l s).mail = s.mail := rfl
@[simp] theorem dropBlocks_pending (g : Byte) (l : Link) (s : State) : (dropBlocks g l s).pending = s.pending := rfl

/-! ## What each changes -/

@[simp] theorem sendLevel_mail (c : Cond) (l : Option Link) (v : Bool) (s : State) :
    (sendLevel c l v s).mail = { s.mail with levels := s.mail.levels ++ [⟨c, l, v⟩] } := rfl

@[simp] theorem sendEvent_mail (c : Cond) (s : State) :
    (sendEvent c s).mail = { s.mail with events := s.mail.events ++ [c] } := rfl

@[simp] theorem reselectSpeed_vsb (s : State) :
    (reselectSpeed s).vsb = { s.vsb with speed := selectSpeed s.mu.tables.vehicle s.vsb } := rfl

@[simp] theorem reselectSteer_vsb (s : State) :
    (reselectSteer s).vsb = { s.vsb with steer := selectSteer s.mu.tables.vehicle s.vsb } := rfl

@[simp] theorem updLink_links (l : Link) (f : Slc → Slc) (s : State) :
    (updLink l f s).links = s.links.set l (f (s.links.get l)) := rfl

@[simp] theorem wake_links (l : Link) (s : State) :
    (wake l s).links = s.links.set l (wakeSlc (s.links.get l)) := rfl

@[simp] theorem upStart_up (s : State) : (upStart s).up = upStartUp s.mu.strap s.up := rfl

@[simp] theorem updModule_links (l : Link) (k : Slot) (f : ModuleRec → ModuleRec) (s : State) :
    (updModule l k f s).links
      = s.links.set l { s.links.get l with modules := (s.links.get l).modules.modify k f } := rfl

@[simp] theorem countLink_links (l : Link) (i : Fin 13) (s : State) :
    (countLink l i s).links
      = s.links.set l { s.links.get l with stats := bumpAt i (s.links.get l).stats } := rfl

@[simp] theorem grantNext_links (l : Link) (s : State) :
    (grantNext l s).links
      = s.links.set l (nextGrant s.mu.tables.link (s.mu.tables.modules.get l) (s.links.get l)) := rfl

@[simp] theorem grantAtWake_links (l : Link) (s : State) :
    (grantAtWake l s).links
      = s.links.set l (wakeGrant s.mu.tables.link (s.mu.tables.modules.get l) (s.links.get l)) := rfl

@[simp] theorem placePattern_links (l : Link) (fs : List PatternFrame) (s : State) :
    (placePattern l fs s).links
      = s.links.set l (wakeSlc { s.links.get l with patternQ := (s.links.get l).patternQ ++ fs }) := by
  simp [placePattern]

@[simp] theorem dropBlocks_links (g : Byte) (l : Link) (s : State) :
    (dropBlocks g l s).links
      = s.links.set l
          { s.links.get l with patternQ := (s.links.get l).patternQ.filter fun f => !isBlockOf g f } := rfl

@[simp] theorem countVehicle_vsb (i : Fin 7) (s : State) :
    (countVehicle i s).vsb = { s.vsb with stats := bumpAt i s.vsb.stats } := rfl

@[simp] theorem countScene_sa (i : Fin 11) (s : State) :
    (countScene i s).sa = { s.sa with stats := bumpAt i s.sa.stats } := rfl

@[simp] theorem countPort_up (i : Fin 19) (s : State) :
    (countPort i s).up = { s.up with stats := bumpAt i s.up.stats } := rfl

@[simp] theorem countDelivery_du (i : Fin 9) (s : State) :
    (countDelivery i s).du = { s.du with stats := bumpAt i s.du.stats } := rfl

@[simp] theorem countManagement_mu (i : Fin 4) (s : State) :
    (countManagement i s).mu = { s.mu with stats := bumpAt i s.mu.stats } := rfl

@[simp] theorem clearTable_tu (s : State) : (clearTable s).tu = { s.tu with tracks := Row.fill 24 none } := rfl

@[simp] theorem cmApplied_cm (m : Mode) (s : State) :
    (cmApplied m s).cm = { s.cm with appliedMode := some m, fbk := decide (m = .fallback) } := rfl

end Sys2Proof.Machine
end

