-- ==== Sys2Proof/Laws/Frames.lean ====
section
/-! SUPPORT. What each shared operation leaves alone, field by field; proofs cite these and do not unfold it. -/

namespace Sys2Proof.Machine

/-- A fold whose every step keeps a reading of the state keeps it. -/
theorem foldl_keeps {α β : Type} (g : State → β) (f : State → α → State) (h : ∀ s a, g (f s a) = g s) (xs : List α)
    (s : State) : g (xs.foldl f s) = g s := by
  induction xs generalizing s with
  | nil => rfl
  | cons x xs ih => simp [ih, h]

@[simp] theorem sendIfChanged_keeps (c : Cond) (l : Option Link) (a b : Bool) (s : State) :
    (sendIfChanged c l a b s).now = s.now ∧ (sendIfChanged c l a b s).inReset = s.inReset ∧
    (sendIfChanged c l a b s).sta = s.sta ∧ (sendIfChanged c l a b s).stb = s.stb ∧
    (sendIfChanged c l a b s).vsb = s.vsb ∧ (sendIfChanged c l a b s).sa = s.sa ∧
    (sendIfChanged c l a b s).tu = s.tu ∧ (sendIfChanged c l a b s).pb = s.pb ∧
    (sendIfChanged c l a b s).links = s.links ∧ (sendIfChanged c l a b s).du = s.du ∧
    (sendIfChanged c l a b s).cm = s.cm ∧ (sendIfChanged c l a b s).up = s.up ∧ (sendIfChanged c l a b s).mu = s.mu ∧
    (sendIfChanged c l a b s).pending = s.pending := by
  simp only [sendIfChanged]
  (repeat' split) <;> simp

@[simp] theorem reportStale_keeps (s : State) :
    (reportStale s).now = s.now ∧ (reportStale s).inReset = s.inReset ∧ (reportStale s).sta = s.sta ∧
    (reportStale s).stb = s.stb ∧ (reportStale s).sa = s.sa ∧ (reportStale s).tu = s.tu ∧ (reportStale s).pb = s.pb ∧
    (reportStale s).links = s.links ∧ (reportStale s).du = s.du ∧ (reportStale s).cm = s.cm ∧
    (reportStale s).up = s.up ∧ (reportStale s).mu = s.mu ∧ (reportStale s).pending = s.pending := by
  simp [reportStale]

@[simp] theorem reportDisagree_keeps (s : State) :
    (reportDisagree s).now = s.now ∧ (reportDisagree s).inReset = s.inReset ∧ (reportDisagree s).sta = s.sta ∧
    (reportDisagree s).stb = s.stb ∧ (reportDisagree s).sa = s.sa ∧ (reportDisagree s).tu = s.tu ∧
    (reportDisagree s).pb = s.pb ∧ (reportDisagree s).links = s.links ∧ (reportDisagree s).du = s.du ∧
    (reportDisagree s).cm = s.cm ∧ (reportDisagree s).up = s.up ∧ (reportDisagree s).mu = s.mu ∧
    (reportDisagree s).pending = s.pending := by
  simp [reportDisagree]

@[simp] theorem speedChanged_keeps (s : State) :
    (speedChanged s).now = s.now ∧ (speedChanged s).inReset = s.inReset ∧ (speedChanged s).sta = s.sta ∧
    (speedChanged s).stb = s.stb ∧ (speedChanged s).sa = s.sa ∧ (speedChanged s).tu = s.tu ∧
    (speedChanged s).pb = s.pb ∧ (speedChanged s).links = s.links ∧ (speedChanged s).du = s.du ∧
    (speedChanged s).cm = s.cm ∧ (speedChanged s).up = s.up ∧ (speedChanged s).mu = s.mu ∧
    (speedChanged s).pending = s.pending := by
  simp [speedChanged]

@[simp] theorem steerChanged_keeps (s : State) :
    (steerChanged s).now = s.now ∧ (steerChanged s).inReset = s.inReset ∧ (steerChanged s).sta = s.sta ∧
    (steerChanged s).stb = s.stb ∧ (steerChanged s).sa = s.sa ∧ (steerChanged s).tu = s.tu ∧
    (steerChanged s).pb = s.pb ∧ (steerChanged s).links = s.links ∧ (steerChanged s).du = s.du ∧
    (steerChanged s).cm = s.cm ∧ (steerChanged s).up = s.up ∧ (steerChanged s).mu = s.mu ∧
    (steerChanged s).pending = s.pending := by
  simp [steerChanged]

@[simp] theorem vehicleChanged_keeps (s : State) :
    (vehicleChanged s).now = s.now ∧ (vehicleChanged s).inReset = s.inReset ∧ (vehicleChanged s).sta = s.sta ∧
    (vehicleChanged s).stb = s.stb ∧ (vehicleChanged s).sa = s.sa ∧ (vehicleChanged s).tu = s.tu ∧
    (vehicleChanged s).pb = s.pb ∧ (vehicleChanged s).links = s.links ∧ (vehicleChanged s).du = s.du ∧
    (vehicleChanged s).cm = s.cm ∧ (vehicleChanged s).up = s.up ∧ (vehicleChanged s).mu = s.mu ∧
    (vehicleChanged s).pending = s.pending := by
  simp [vehicleChanged]

@[simp] theorem reportLink_keeps (l : Link) (s : State) :
    (reportLink l s).now = s.now ∧ (reportLink l s).inReset = s.inReset ∧ (reportLink l s).sta = s.sta ∧
    (reportLink l s).stb = s.stb ∧ (reportLink l s).vsb = s.vsb ∧ (reportLink l s).sa = s.sa ∧
    (reportLink l s).tu = s.tu ∧ (reportLink l s).pb = s.pb ∧ (reportLink l s).du = s.du ∧
    (reportLink l s).cm = s.cm ∧ (reportLink l s).up = s.up ∧ (reportLink l s).mu = s.mu ∧
    (reportLink l s).pending = s.pending := by
  simp [reportLink]

@[simp] theorem reportLinks_keeps (s : State) :
    (reportLinks s).now = s.now ∧ (reportLinks s).inReset = s.inReset ∧ (reportLinks s).sta = s.sta ∧
    (reportLinks s).stb = s.stb ∧ (reportLinks s).vsb = s.vsb ∧ (reportLinks s).sa = s.sa ∧
    (reportLinks s).tu = s.tu ∧ (reportLinks s).pb = s.pb ∧ (reportLinks s).du = s.du ∧ (reportLinks s).cm = s.cm ∧
    (reportLinks s).up = s.up ∧ (reportLinks s).mu = s.mu ∧ (reportLinks s).pending = s.pending := by
  simp [reportLinks]

@[simp] theorem tableLives_keeps (id : TableId) (t : Tables) (s : State) :
    (tableLives id t s).now = s.now ∧ (tableLives id t s).inReset = s.inReset ∧ (tableLives id t s).sta = s.sta ∧
    (tableLives id t s).stb = s.stb ∧ (tableLives id t s).vsb = s.vsb ∧ (tableLives id t s).sa = s.sa ∧
    (tableLives id t s).tu = s.tu ∧ (tableLives id t s).pb = s.pb ∧ (tableLives id t s).du = s.du ∧
    (tableLives id t s).cm = s.cm ∧ (tableLives id t s).up = s.up ∧ (tableLives id t s).mu = s.mu ∧
    (tableLives id t s).pending = s.pending := by
  simp only [tableLives]
  (repeat' split) <;> simp

@[simp] theorem takeCommit_keeps (s : State) :
    (takeCommit s).now = s.now ∧ (takeCommit s).inReset = s.inReset ∧ (takeCommit s).sta = s.sta ∧
    (takeCommit s).stb = s.stb ∧ (takeCommit s).vsb = s.vsb ∧ (takeCommit s).sa = s.sa ∧ (takeCommit s).tu = s.tu ∧
    (takeCommit s).du = s.du ∧ (takeCommit s).cm = s.cm ∧ (takeCommit s).up = s.up ∧
    (takeCommit s).pending = s.pending := by
  unfold takeCommit
  split
  · refine ⟨?_, ?_, ?_, ?_, ?_, ?_, ?_, ?_, ?_, ?_, ?_⟩
    · rw [foldl_keeps (fun s => s.now) _ (by intros; simp)]
    · rw [foldl_keeps (fun s => s.inReset) _ (by intros; simp)]
    · rw [foldl_keeps (fun s => s.sta) _ (by intros; simp)]
    · rw [foldl_keeps (fun s => s.stb) _ (by intros; simp)]
    · rw [foldl_keeps (fun s => s.vsb) _ (by intros; simp)]
    · rw [foldl_keeps (fun s => s.sa) _ (by intros; simp)]
    · rw [foldl_keeps (fun s => s.tu) _ (by intros; simp)]
    · rw [foldl_keeps (fun s => s.du) _ (by intros; simp)]
    · rw [foldl_keeps (fun s => s.cm) _ (by intros; simp)]
    · rw [foldl_keeps (fun s => s.up) _ (by intros; simp)]
    · rw [foldl_keeps (fun s => s.pending) _ (by intros; simp)]
  · simp

@[simp] theorem buildStart_keeps (s : State) :
    (buildStart s).now = s.now ∧ (buildStart s).inReset = s.inReset ∧ (buildStart s).sta = s.sta ∧
    (buildStart s).stb = s.stb ∧ (buildStart s).vsb = s.vsb ∧ (buildStart s).sa = s.sa ∧ (buildStart s).tu = s.tu ∧
    (buildStart s).du = s.du ∧ (buildStart s).cm = s.cm ∧ (buildStart s).up = s.up ∧
    (buildStart s).pending = s.pending := by
  simp [buildStart]

@[simp] theorem trigger_keeps (s : State) :
    (trigger s).now = s.now ∧ (trigger s).inReset = s.inReset ∧ (trigger s).sta = s.sta ∧ (trigger s).stb = s.stb ∧
    (trigger s).vsb = s.vsb ∧ (trigger s).sa = s.sa ∧ (trigger s).tu = s.tu ∧ (trigger s).du = s.du ∧
    (trigger s).cm = s.cm ∧ (trigger s).up = s.up ∧ (trigger s).pending = s.pending := by
  simp only [trigger]
  (repeat' split) <;> simp

@[simp] theorem enterJoining_keeps (l : Link) (k : Slot) (s : State) :
    (enterJoining l k s).now = s.now ∧ (enterJoining l k s).inReset = s.inReset ∧ (enterJoining l k s).sta = s.sta ∧
    (enterJoining l k s).stb = s.stb ∧ (enterJoining l k s).vsb = s.vsb ∧ (enterJoining l k s).sa = s.sa ∧
    (enterJoining l k s).tu = s.tu ∧ (enterJoining l k s).pb = s.pb ∧ (enterJoining l k s).du = s.du ∧
    (enterJoining l k s).cm = s.cm ∧ (enterJoining l k s).up = s.up ∧ (enterJoining l k s).mu = s.mu ∧
    (enterJoining l k s).pending = s.pending := by
  simp only [enterJoining]; split <;> simp

@[simp] theorem cutShort_keeps (l : Link) (k : Slot) (s : State) :
    (cutShort l k s).now = s.now ∧ (cutShort l k s).inReset = s.inReset ∧ (cutShort l k s).sta = s.sta ∧
    (cutShort l k s).stb = s.stb ∧ (cutShort l k s).vsb = s.vsb ∧ (cutShort l k s).sa = s.sa ∧
    (cutShort l k s).tu = s.tu ∧ (cutShort l k s).pb = s.pb ∧ (cutShort l k s).du = s.du ∧
    (cutShort l k s).cm = s.cm ∧ (cutShort l k s).up = s.up ∧ (cutShort l k s).mu = s.mu ∧
    (cutShort l k s).mail = s.mail ∧ (cutShort l k s).pending = s.pending := by
  simp only [cutShort]
  (repeat' split) <;> simp

@[simp] theorem becomeBroken_keeps (l : Link) (k : Slot) (s : State) :
    (becomeBroken l k s).now = s.now ∧ (becomeBroken l k s).inReset = s.inReset ∧ (becomeBroken l k s).sta = s.sta ∧
    (becomeBroken l k s).stb = s.stb ∧ (becomeBroken l k s).vsb = s.vsb ∧ (becomeBroken l k s).sa = s.sa ∧
    (becomeBroken l k s).tu = s.tu ∧ (becomeBroken l k s).pb = s.pb ∧ (becomeBroken l k s).du = s.du ∧
    (becomeBroken l k s).cm = s.cm ∧ (becomeBroken l k s).up = s.up ∧ (becomeBroken l k s).mu = s.mu ∧
    (becomeBroken l k s).pending = s.pending := by
  simp only [becomeBroken]
  (repeat' split) <;> simp

@[simp] theorem miss_keeps (l : Link) (k : Slot) (s : State) :
    (miss l k s).now = s.now ∧ (miss l k s).inReset = s.inReset ∧ (miss l k s).sta = s.sta ∧
    (miss l k s).stb = s.stb ∧ (miss l k s).vsb = s.vsb ∧ (miss l k s).sa = s.sa ∧ (miss l k s).tu = s.tu ∧
    (miss l k s).pb = s.pb ∧ (miss l k s).du = s.du ∧ (miss l k s).cm = s.cm ∧ (miss l k s).up = s.up ∧
    (miss l k s).mu = s.mu ∧ (miss l k s).pending = s.pending := by
  simp only [miss]
  (repeat' split) <;> simp

@[simp] theorem chargeMiss_keeps (l : Link) (k : Slot) (s : State) :
    (chargeMiss l k s).now = s.now ∧ (chargeMiss l k s).inReset = s.inReset ∧ (chargeMiss l k s).sta = s.sta ∧
    (chargeMiss l k s).stb = s.stb ∧ (chargeMiss l k s).vsb = s.vsb ∧ (chargeMiss l k s).sa = s.sa ∧
    (chargeMiss l k s).tu = s.tu ∧ (chargeMiss l k s).pb = s.pb ∧ (chargeMiss l k s).du = s.du ∧
    (chargeMiss l k s).cm = s.cm ∧ (chargeMiss l k s).up = s.up ∧ (chargeMiss l k s).mu = s.mu ∧
    (chargeMiss l k s).pending = s.pending := by
  simp only [chargeMiss]
  (repeat' split) <;> simp

@[simp] theorem setUpLink_keeps (l : Link) (s : State) :
    (setUpLink l s).now = s.now ∧ (setUpLink l s).inReset = s.inReset ∧ (setUpLink l s).sta = s.sta ∧
    (setUpLink l s).stb = s.stb ∧ (setUpLink l s).vsb = s.vsb ∧ (setUpLink l s).sa = s.sa ∧
    (setUpLink l s).tu = s.tu ∧ (setUpLink l s).pb = s.pb ∧ (setUpLink l s).du = s.du ∧ (setUpLink l s).cm = s.cm ∧
    (setUpLink l s).up = s.up ∧ (setUpLink l s).mu = s.mu ∧ (setUpLink l s).pending = s.pending := by
  simp [setUpLink]

@[simp] theorem treatAbsent_keeps (l : Link) (s : State) :
    (treatAbsent l s).now = s.now ∧ (treatAbsent l s).inReset = s.inReset ∧ (treatAbsent l s).sta = s.sta ∧
    (treatAbsent l s).stb = s.stb ∧ (treatAbsent l s).vsb = s.vsb ∧ (treatAbsent l s).sa = s.sa ∧
    (treatAbsent l s).tu = s.tu ∧ (treatAbsent l s).pb = s.pb ∧ (treatAbsent l s).du = s.du ∧
    (treatAbsent l s).cm = s.cm ∧ (treatAbsent l s).up = s.up ∧ (treatAbsent l s).mu = s.mu ∧
    (treatAbsent l s).pending = s.pending := by
  simp only [treatAbsent]
  (repeat' split) <;> simp

@[simp] theorem moduleLoadFollows_keeps (id : TableId) (s : State) :
    (moduleLoadFollows id s).now = s.now ∧ (moduleLoadFollows id s).inReset = s.inReset ∧
    (moduleLoadFollows id s).sta = s.sta ∧ (moduleLoadFollows id s).stb = s.stb ∧
    (moduleLoadFollows id s).vsb = s.vsb ∧ (moduleLoadFollows id s).sa = s.sa ∧ (moduleLoadFollows id s).tu = s.tu ∧
    (moduleLoadFollows id s).pb = s.pb ∧ (moduleLoadFollows id s).du = s.du ∧ (moduleLoadFollows id s).cm = s.cm ∧
    (moduleLoadFollows id s).up = s.up ∧ (moduleLoadFollows id s).mu = s.mu ∧
    (moduleLoadFollows id s).pending = s.pending := by
  simp only [moduleLoadFollows]
  (repeat' split) <;> simp

@[simp] theorem offerPass_keeps (l : Link) (f : PassFrame) (s : State) :
    (offerPass l f s).now = s.now ∧ (offerPass l f s).inReset = s.inReset ∧ (offerPass l f s).sta = s.sta ∧
    (offerPass l f s).stb = s.stb ∧ (offerPass l f s).vsb = s.vsb ∧ (offerPass l f s).sa = s.sa ∧
    (offerPass l f s).tu = s.tu ∧ (offerPass l f s).pb = s.pb ∧ (offerPass l f s).du = s.du ∧
    (offerPass l f s).cm = s.cm ∧ (offerPass l f s).up = s.up ∧ (offerPass l f s).mu = s.mu ∧
    (offerPass l f s).mail = s.mail ∧ (offerPass l f s).pending = s.pending := by
  simp only [offerPass]
  (repeat' split) <;> simp

@[simp] theorem setNoModules_keeps (v : Bool) (s : State) :
    (setNoModules v s).now = s.now ∧ (setNoModules v s).inReset = s.inReset ∧ (setNoModules v s).sta = s.sta ∧
    (setNoModules v s).stb = s.stb ∧ (setNoModules v s).vsb = s.vsb ∧ (setNoModules v s).sa = s.sa ∧
    (setNoModules v s).tu = s.tu ∧ (setNoModules v s).pb = s.pb ∧ (setNoModules v s).links = s.links ∧
    (setNoModules v s).cm = s.cm ∧ (setNoModules v s).up = s.up ∧ (setNoModules v s).mu = s.mu ∧
    (setNoModules v s).pending = s.pending := by
  simp [setNoModules]

@[simp] theorem placeBlocks_keeps (l : Link) (fs : List PatternFrame) (s : State) :
    (placeBlocks l fs s).now = s.now ∧ (placeBlocks l fs s).inReset = s.inReset ∧ (placeBlocks l fs s).sta = s.sta ∧
    (placeBlocks l fs s).stb = s.stb ∧ (placeBlocks l fs s).vsb = s.vsb ∧ (placeBlocks l fs s).sa = s.sa ∧
    (placeBlocks l fs s).tu = s.tu ∧ (placeBlocks l fs s).pb = s.pb ∧ (placeBlocks l fs s).du = s.du ∧
    (placeBlocks l fs s).cm = s.cm ∧ (placeBlocks l fs s).up = s.up ∧ (placeBlocks l fs s).mu = s.mu ∧
    (placeBlocks l fs s).mail = s.mail ∧ (placeBlocks l fs s).pending = s.pending := by
  simp only [placeBlocks]
  (repeat' split) <;> simp

@[simp] theorem startDelivery_keeps (g : GenRecord) (s : State) :
    (startDelivery g s).now = s.now ∧ (startDelivery g s).inReset = s.inReset ∧ (startDelivery g s).sta = s.sta ∧
    (startDelivery g s).stb = s.stb ∧ (startDelivery g s).vsb = s.vsb ∧ (startDelivery g s).sa = s.sa ∧
    (startDelivery g s).tu = s.tu ∧ (startDelivery g s).pb = s.pb ∧ (startDelivery g s).cm = s.cm ∧
    (startDelivery g s).up = s.up ∧ (startDelivery g s).mu = s.mu ∧ (startDelivery g s).pending = s.pending := by
  simp only [startDelivery]
  (repeat' split) <;> simp

@[simp] theorem endDelivery_keeps (s : State) :
    (endDelivery s).now = s.now ∧ (endDelivery s).inReset = s.inReset ∧ (endDelivery s).sta = s.sta ∧
    (endDelivery s).stb = s.stb ∧ (endDelivery s).vsb = s.vsb ∧ (endDelivery s).sa = s.sa ∧
    (endDelivery s).tu = s.tu ∧ (endDelivery s).pb = s.pb ∧ (endDelivery s).cm = s.cm ∧ (endDelivery s).up = s.up ∧
    (endDelivery s).mu = s.mu ∧ (endDelivery s).pending = s.pending := by
  simp only [endDelivery]
  (repeat' split) <;> simp

@[simp] theorem applyNow_keeps (g : GenRecord) (s : State) :
    (applyNow g s).now = s.now ∧ (applyNow g s).inReset = s.inReset ∧ (applyNow g s).sta = s.sta ∧
    (applyNow g s).stb = s.stb ∧ (applyNow g s).vsb = s.vsb ∧ (applyNow g s).sa = s.sa ∧ (applyNow g s).tu = s.tu ∧
    (applyNow g s).pb = s.pb ∧ (applyNow g s).cm = s.cm ∧ (applyNow g s).up = s.up ∧ (applyNow g s).mu = s.mu ∧
    (applyNow g s).mail = s.mail ∧ (applyNow g s).pending = s.pending := by
  simp [applyNow]

@[simp] theorem leaveAckSet_keeps (g : GenRecord) (l : Link) (k : Slot) (s : State) :
    (leaveAckSet g l k s).now = s.now ∧ (leaveAckSet g l k s).inReset = s.inReset ∧
    (leaveAckSet g l k s).sta = s.sta ∧ (leaveAckSet g l k s).stb = s.stb ∧ (leaveAckSet g l k s).vsb = s.vsb ∧
    (leaveAckSet g l k s).sa = s.sa ∧ (leaveAckSet g l k s).tu = s.tu ∧ (leaveAckSet g l k s).pb = s.pb ∧
    (leaveAckSet g l k s).cm = s.cm ∧ (leaveAckSet g l k s).up = s.up ∧ (leaveAckSet g l k s).mu = s.mu ∧
    (leaveAckSet g l k s).mail = s.mail ∧ (leaveAckSet g l k s).pending = s.pending := by
  simp only [leaveAckSet]
  (repeat' split) <;> simp

@[simp] theorem applyTransmitted_keeps (l : Link) (s : State) :
    (applyTransmitted l s).now = s.now ∧ (applyTransmitted l s).inReset = s.inReset ∧
    (applyTransmitted l s).sta = s.sta ∧ (applyTransmitted l s).stb = s.stb ∧ (applyTransmitted l s).vsb = s.vsb ∧
    (applyTransmitted l s).sa = s.sa ∧ (applyTransmitted l s).tu = s.tu ∧ (applyTransmitted l s).pb = s.pb ∧
    (applyTransmitted l s).up = s.up ∧ (applyTransmitted l s).mu = s.mu ∧
    (applyTransmitted l s).pending = s.pending := by
  simp only [applyTransmitted]
  (repeat' split) <;> simp

@[simp] theorem startReplyTimer_keeps (l : Link) (k : Slot) (kind : PollKind) (s : State) :
    (startReplyTimer l k kind s).now = s.now ∧ (startReplyTimer l k kind s).inReset = s.inReset ∧
    (startReplyTimer l k kind s).sta = s.sta ∧ (startReplyTimer l k kind s).stb = s.stb ∧
    (startReplyTimer l k kind s).vsb = s.vsb ∧ (startReplyTimer l k kind s).sa = s.sa ∧
    (startReplyTimer l k kind s).tu = s.tu ∧ (startReplyTimer l k kind s).pb = s.pb ∧
    (startReplyTimer l k kind s).du = s.du ∧ (startReplyTimer l k kind s).cm = s.cm ∧
    (startReplyTimer l k kind s).up = s.up ∧ (startReplyTimer l k kind s).mu = s.mu ∧
    (startReplyTimer l k kind s).mail = s.mail ∧ (startReplyTimer l k kind s).pending = s.pending := by
  simp only [startReplyTimer]
  (repeat' split) <;> simp

@[simp] theorem frameSent_keeps (l : Link) (f : LinkFrame) (s : State) :
    (frameSent l f s).now = s.now ∧ (frameSent l f s).inReset = s.inReset ∧ (frameSent l f s).sta = s.sta ∧
    (frameSent l f s).stb = s.stb ∧ (frameSent l f s).vsb = s.vsb ∧ (frameSent l f s).sa = s.sa ∧
    (frameSent l f s).tu = s.tu ∧ (frameSent l f s).pb = s.pb ∧ (frameSent l f s).up = s.up ∧
    (frameSent l f s).mu = s.mu ∧ (frameSent l f s).pending = s.pending := by
  simp only [frameSent]
  (repeat' split) <;> simp

@[simp] theorem tearScene_keeps (s : State) :
    (tearScene s).now = s.now ∧ (tearScene s).inReset = s.inReset ∧ (tearScene s).sta = s.sta ∧
    (tearScene s).stb = s.stb ∧ (tearScene s).vsb = s.vsb ∧ (tearScene s).tu = s.tu ∧ (tearScene s).pb = s.pb ∧
    (tearScene s).links = s.links ∧ (tearScene s).du = s.du ∧ (tearScene s).cm = s.cm ∧ (tearScene s).up = s.up ∧
    (tearScene s).mu = s.mu ∧ (tearScene s).pending = s.pending := by
  simp only [tearScene]
  (repeat' split) <;> simp

@[simp] theorem clearStale_keeps (s : State) :
    (clearStale s).now = s.now ∧ (clearStale s).inReset = s.inReset ∧ (clearStale s).sta = s.sta ∧
    (clearStale s).stb = s.stb ∧ (clearStale s).vsb = s.vsb ∧ (clearStale s).tu = s.tu ∧ (clearStale s).pb = s.pb ∧
    (clearStale s).links = s.links ∧ (clearStale s).du = s.du ∧ (clearStale s).cm = s.cm ∧ (clearStale s).up = s.up ∧
    (clearStale s).mu = s.mu ∧ (clearStale s).pending = s.pending := by
  simp only [clearStale]
  (repeat' split) <;> simp

@[simp] theorem completeScene_keeps (p : SceneProgress) (s : State) :
    (completeScene p s).now = s.now ∧ (completeScene p s).inReset = s.inReset ∧ (completeScene p s).sta = s.sta ∧
    (completeScene p s).stb = s.stb ∧ (completeScene p s).vsb = s.vsb ∧ (completeScene p s).tu = s.tu ∧
    (completeScene p s).pb = s.pb ∧ (completeScene p s).links = s.links ∧ (completeScene p s).du = s.du ∧
    (completeScene p s).cm = s.cm ∧ (completeScene p s).up = s.up ∧ (completeScene p s).mu = s.mu ∧
    (completeScene p s).pending = s.pending := by
  simp [completeScene]

@[simp] theorem countCheck_keeps (n : Nat) (s : State) :
    (countCheck n s).now = s.now ∧ (countCheck n s).inReset = s.inReset ∧ (countCheck n s).sta = s.sta ∧
    (countCheck n s).stb = s.stb ∧ (countCheck n s).vsb = s.vsb ∧ (countCheck n s).tu = s.tu ∧
    (countCheck n s).pb = s.pb ∧ (countCheck n s).links = s.links ∧ (countCheck n s).du = s.du ∧
    (countCheck n s).cm = s.cm ∧ (countCheck n s).up = s.up ∧ (countCheck n s).mu = s.mu ∧
    (countCheck n s).pending = s.pending := by
  simp only [countCheck]
  (repeat' split) <;> simp

@[simp] theorem takeReports_keeps (f : ObjectFrame) (s : State) :
    (takeReports f s).now = s.now ∧ (takeReports f s).inReset = s.inReset ∧ (takeReports f s).sta = s.sta ∧
    (takeReports f s).stb = s.stb ∧ (takeReports f s).vsb = s.vsb ∧ (takeReports f s).tu = s.tu ∧
    (takeReports f s).pb = s.pb ∧ (takeReports f s).links = s.links ∧ (takeReports f s).du = s.du ∧
    (takeReports f s).cm = s.cm ∧ (takeReports f s).up = s.up ∧ (takeReports f s).mu = s.mu ∧
    (takeReports f s).pending = s.pending := by
  simp only [takeReports]
  (repeat' split) <;> simp

@[simp] theorem placeFrame_keeps (f : ObjectFrame) (s : State) :
    (placeFrame f s).now = s.now ∧ (placeFrame f s).inReset = s.inReset ∧ (placeFrame f s).sta = s.sta ∧
    (placeFrame f s).stb = s.stb ∧ (placeFrame f s).vsb = s.vsb ∧ (placeFrame f s).tu = s.tu ∧
    (placeFrame f s).pb = s.pb ∧ (placeFrame f s).links = s.links ∧ (placeFrame f s).du = s.du ∧
    (placeFrame f s).cm = s.cm ∧ (placeFrame f s).up = s.up ∧ (placeFrame f s).mu = s.mu ∧
    (placeFrame f s).pending = s.pending := by
  simp only [placeFrame]
  (repeat' split) <;> simp

@[simp] theorem placeNotice_keeps (s : State) :
    (placeNotice s).now = s.now ∧ (placeNotice s).inReset = s.inReset ∧ (placeNotice s).sta = s.sta ∧
    (placeNotice s).stb = s.stb ∧ (placeNotice s).vsb = s.vsb ∧ (placeNotice s).sa = s.sa ∧
    (placeNotice s).tu = s.tu ∧ (placeNotice s).pb = s.pb ∧ (placeNotice s).links = s.links ∧
    (placeNotice s).du = s.du ∧ (placeNotice s).mu = s.mu ∧ (placeNotice s).mail = s.mail ∧
    (placeNotice s).pending = s.pending := by
  simp [placeNotice]

@[simp] theorem reworkAction_keeps (s : State) :
    (reworkAction s).now = s.now ∧ (reworkAction s).inReset = s.inReset ∧ (reworkAction s).sta = s.sta ∧
    (reworkAction s).stb = s.stb ∧ (reworkAction s).vsb = s.vsb ∧ (reworkAction s).sa = s.sa ∧
    (reworkAction s).tu = s.tu ∧ (reworkAction s).du = s.du ∧ (reworkAction s).up = s.up ∧
    (reworkAction s).pending = s.pending := by
  simp only [reworkAction]
  (repeat' split) <;> simp

@[simp] theorem settle_keeps (c : Cond) (m : Moved) (s : State) :
    (settle c m s).now = s.now ∧ (settle c m s).inReset = s.inReset ∧ (settle c m s).sta = s.sta ∧
    (settle c m s).stb = s.stb ∧ (settle c m s).vsb = s.vsb ∧ (settle c m s).sa = s.sa ∧ (settle c m s).tu = s.tu ∧
    (settle c m s).du = s.du ∧ (settle c m s).pending = s.pending := by
  simp only [settle]
  (repeat' split) <;> simp

@[simp] theorem runCondition_keeps (c : Cond) (f : CondEntry → CondRec → Moved) (s : State) :
    (runCondition c f s).now = s.now ∧ (runCondition c f s).inReset = s.inReset ∧ (runCondition c f s).sta = s.sta ∧
    (runCondition c f s).stb = s.stb ∧ (runCondition c f s).vsb = s.vsb ∧ (runCondition c f s).sa = s.sa ∧
    (runCondition c f s).tu = s.tu ∧ (runCondition c f s).du = s.du ∧ (runCondition c f s).pending = s.pending := by
  simp [runCondition]

@[simp] theorem relatch_keeps (x : LatchingChange) (s : State) (c : Cond) :
    (relatch x s c).now = s.now ∧ (relatch x s c).inReset = s.inReset ∧ (relatch x s c).sta = s.sta ∧
    (relatch x s c).stb = s.stb ∧ (relatch x s c).vsb = s.vsb ∧ (relatch x s c).sa = s.sa ∧
    (relatch x s c).tu = s.tu ∧ (relatch x s c).du = s.du ∧ (relatch x s c).pending = s.pending := by
  simp only [relatch]
  (repeat' split) <;> simp

@[simp] theorem offerPassUp_keeps (f : PassFrame) (s : State) :
    (offerPassUp f s).now = s.now ∧ (offerPassUp f s).inReset = s.inReset ∧ (offerPassUp f s).sta = s.sta ∧
    (offerPassUp f s).stb = s.stb ∧ (offerPassUp f s).vsb = s.vsb ∧ (offerPassUp f s).sa = s.sa ∧
    (offerPassUp f s).tu = s.tu ∧ (offerPassUp f s).pb = s.pb ∧ (offerPassUp f s).links = s.links ∧
    (offerPassUp f s).du = s.du ∧ (offerPassUp f s).cm = s.cm ∧ (offerPassUp f s).mu = s.mu ∧
    (offerPassUp f s).mail = s.mail ∧ (offerPassUp f s).pending = s.pending := by
  simp only [offerPassUp]
  (repeat' split) <;> simp

@[simp] theorem takeStatus_keeps (l : Link) (k : Slot) (b : Nat) (sf : Bool) (fs : List Nat) (s : State) :
    (takeStatus l k b sf fs s).now = s.now ∧ (takeStatus l k b sf fs s).inReset = s.inReset ∧
    (takeStatus l k b sf fs s).sta = s.sta ∧ (takeStatus l k b sf fs s).stb = s.stb ∧
    (takeStatus l k b sf fs s).vsb = s.vsb ∧ (takeStatus l k b sf fs s).sa = s.sa ∧
    (takeStatus l k b sf fs s).tu = s.tu ∧ (takeStatus l k b sf fs s).du = s.du ∧
    (takeStatus l k b sf fs s).cm = s.cm ∧ (takeStatus l k b sf fs s).up = s.up ∧
    (takeStatus l k b sf fs s).pending = s.pending := by
  simp only [takeStatus]
  (repeat' split) <;> simp

@[simp] theorem takeModuleFrame_keeps (l : Link) (f : ModuleFrame) (s : State) :
    (takeModuleFrame l f s).now = s.now ∧ (takeModuleFrame l f s).inReset = s.inReset ∧
    (takeModuleFrame l f s).sta = s.sta ∧ (takeModuleFrame l f s).stb = s.stb ∧ (takeModuleFrame l f s).vsb = s.vsb ∧
    (takeModuleFrame l f s).sa = s.sa ∧ (takeModuleFrame l f s).tu = s.tu ∧ (takeModuleFrame l f s).du = s.du ∧
    (takeModuleFrame l f s).cm = s.cm ∧ (takeModuleFrame l f s).pending = s.pending := by
  simp only [takeModuleFrame]
  (repeat' split) <;> simp

@[simp] theorem receiveLink_keeps (l : Link) (bs : List Byte) (s : State) :
    (receiveLink l bs s).now = s.now ∧ (receiveLink l bs s).inReset = s.inReset ∧ (receiveLink l bs s).sta = s.sta ∧
    (receiveLink l bs s).stb = s.stb ∧ (receiveLink l bs s).vsb = s.vsb ∧ (receiveLink l bs s).sa = s.sa ∧
    (receiveLink l bs s).tu = s.tu ∧ (receiveLink l bs s).du = s.du ∧ (receiveLink l bs s).cm = s.cm ∧
    (receiveLink l bs s).pending = s.pending := by
  simp only [receiveLink]
  (repeat' split) <;> simp

@[simp] theorem expireReply_keeps (l : Link) (k : Slot) (s : State) :
    (expireReply l k s).now = s.now ∧ (expireReply l k s).inReset = s.inReset ∧ (expireReply l k s).sta = s.sta ∧
    (expireReply l k s).stb = s.stb ∧ (expireReply l k s).vsb = s.vsb ∧ (expireReply l k s).sa = s.sa ∧
    (expireReply l k s).tu = s.tu ∧ (expireReply l k s).pb = s.pb ∧ (expireReply l k s).du = s.du ∧
    (expireReply l k s).cm = s.cm ∧ (expireReply l k s).up = s.up ∧ (expireReply l k s).mu = s.mu ∧
    (expireReply l k s).pending = s.pending := by
  simp only [expireReply]
  (repeat' split) <;> simp

@[simp] theorem takeLevelReport_keeps (x : LevelReport) (s : State) :
    (takeLevelReport x s).now = s.now ∧ (takeLevelReport x s).inReset = s.inReset ∧
    (takeLevelReport x s).sta = s.sta ∧ (takeLevelReport x s).stb = s.stb ∧ (takeLevelReport x s).vsb = s.vsb ∧
    (takeLevelReport x s).sa = s.sa ∧ (takeLevelReport x s).tu = s.tu ∧ (takeLevelReport x s).du = s.du ∧
    (takeLevelReport x s).pending = s.pending := by
  simp only [takeLevelReport]
  (repeat' split) <;> simp

@[simp] theorem takeReportNow_keeps (x : LevelReport) (s : State) :
    (takeReportNow x s).now = s.now ∧ (takeReportNow x s).inReset = s.inReset ∧ (takeReportNow x s).sta = s.sta ∧
    (takeReportNow x s).stb = s.stb ∧ (takeReportNow x s).vsb = s.vsb ∧ (takeReportNow x s).sa = s.sa ∧
    (takeReportNow x s).tu = s.tu ∧ (takeReportNow x s).du = s.du ∧ (takeReportNow x s).pending = s.pending := by
  unfold takeReportNow
  refine ⟨?_, ?_, ?_, ?_, ?_, ?_, ?_, ?_, ?_⟩
  · rw [foldl_keeps (fun s => s.now) _ (by intros; simp)]
  · rw [foldl_keeps (fun s => s.inReset) _ (by intros; simp)]
  · rw [foldl_keeps (fun s => s.sta) _ (by intros; simp)]
  · rw [foldl_keeps (fun s => s.stb) _ (by intros; simp)]
  · rw [foldl_keeps (fun s => s.vsb) _ (by intros; simp)]
  · rw [foldl_keeps (fun s => s.sa) _ (by intros; simp)]
  · rw [foldl_keeps (fun s => s.tu) _ (by intros; simp)]
  · rw [foldl_keeps (fun s => s.du) _ (by intros; simp)]
  · rw [foldl_keeps (fun s => s.pending) _ (by intros; simp)]

@[simp] theorem detach_keeps (s : State) :
    (detach s).now = s.now ∧ (detach s).inReset = s.inReset ∧ (detach s).sta = s.sta ∧ (detach s).stb = s.stb ∧
    (detach s).vsb = s.vsb ∧ (detach s).sa = s.sa ∧ (detach s).tu = s.tu ∧ (detach s).du = s.du ∧
    (detach s).pending = s.pending := by
  simp [detach]

@[simp] theorem setScore_keeps (n : Nat) (s : State) :
    (setScore n s).now = s.now ∧ (setScore n s).inReset = s.inReset ∧ (setScore n s).sta = s.sta ∧
    (setScore n s).stb = s.stb ∧ (setScore n s).vsb = s.vsb ∧ (setScore n s).sa = s.sa ∧ (setScore n s).tu = s.tu ∧
    (setScore n s).du = s.du ∧ (setScore n s).pending = s.pending := by
  simp only [setScore]
  (repeat' split) <;> simp

@[simp] theorem receiveError_keeps (i : Fin 19) (s : State) :
    (receiveError i s).now = s.now ∧ (receiveError i s).inReset = s.inReset ∧ (receiveError i s).sta = s.sta ∧
    (receiveError i s).stb = s.stb ∧ (receiveError i s).vsb = s.vsb ∧ (receiveError i s).sa = s.sa ∧
    (receiveError i s).tu = s.tu ∧ (receiveError i s).du = s.du ∧ (receiveError i s).pending = s.pending := by
  simp [receiveError]

@[simp] theorem offerManagement_keeps (f : UpFrame) (s : State) :
    (offerManagement f s).now = s.now ∧ (offerManagement f s).inReset = s.inReset ∧
    (offerManagement f s).sta = s.sta ∧ (offerManagement f s).stb = s.stb ∧ (offerManagement f s).vsb = s.vsb ∧
    (offerManagement f s).sa = s.sa ∧ (offerManagement f s).tu = s.tu ∧ (offerManagement f s).pb = s.pb ∧
    (offerManagement f s).links = s.links ∧ (offerManagement f s).du = s.du ∧ (offerManagement f s).cm = s.cm ∧
    (offerManagement f s).mu = s.mu ∧ (offerManagement f s).mail = s.mail ∧
    (offerManagement f s).pending = s.pending := by
  simp only [offerManagement]
  (repeat' split) <;> simp

@[simp] theorem offerObject_keeps (f : UpFrame) (s : State) :
    (offerObject f s).now = s.now ∧ (offerObject f s).inReset = s.inReset ∧ (offerObject f s).sta = s.sta ∧
    (offerObject f s).stb = s.stb ∧ (offerObject f s).vsb = s.vsb ∧ (offerObject f s).sa = s.sa ∧
    (offerObject f s).tu = s.tu ∧ (offerObject f s).pb = s.pb ∧ (offerObject f s).links = s.links ∧
    (offerObject f s).du = s.du ∧ (offerObject f s).cm = s.cm ∧ (offerObject f s).mu = s.mu ∧
    (offerObject f s).pending = s.pending := by
  simp only [offerObject]
  (repeat' split) <;> simp

@[simp] theorem offerVehicle_keeps (f : UpFrame) (s : State) :
    (offerVehicle f s).now = s.now ∧ (offerVehicle f s).inReset = s.inReset ∧ (offerVehicle f s).sta = s.sta ∧
    (offerVehicle f s).stb = s.stb ∧ (offerVehicle f s).vsb = s.vsb ∧ (offerVehicle f s).sa = s.sa ∧
    (offerVehicle f s).tu = s.tu ∧ (offerVehicle f s).pb = s.pb ∧ (offerVehicle f s).links = s.links ∧
    (offerVehicle f s).du = s.du ∧ (offerVehicle f s).cm = s.cm ∧ (offerVehicle f s).mu = s.mu ∧
    (offerVehicle f s).mail = s.mail ∧ (offerVehicle f s).pending = s.pending := by
  simp only [offerVehicle]
  (repeat' split) <;> simp

@[simp] theorem placeByAction_keeps (a : FilterAction) (f : UpFrame) (s : State) :
    (placeByAction a f s).now = s.now ∧ (placeByAction a f s).inReset = s.inReset ∧
    (placeByAction a f s).sta = s.sta ∧ (placeByAction a f s).stb = s.stb ∧ (placeByAction a f s).vsb = s.vsb ∧
    (placeByAction a f s).sa = s.sa ∧ (placeByAction a f s).tu = s.tu ∧ (placeByAction a f s).pb = s.pb ∧
    (placeByAction a f s).du = s.du ∧ (placeByAction a f s).cm = s.cm ∧ (placeByAction a f s).mu = s.mu ∧
    (placeByAction a f s).pending = s.pending := by
  simp only [placeByAction]
  (repeat' split) <;> simp

@[simp] theorem sortFrame_keeps (f : UpFrame) (s : State) :
    (sortFrame f s).now = s.now ∧ (sortFrame f s).inReset = s.inReset ∧ (sortFrame f s).sta = s.sta ∧
    (sortFrame f s).stb = s.stb ∧ (sortFrame f s).vsb = s.vsb ∧ (sortFrame f s).sa = s.sa ∧
    (sortFrame f s).tu = s.tu ∧ (sortFrame f s).pb = s.pb ∧ (sortFrame f s).du = s.du ∧ (sortFrame f s).cm = s.cm ∧
    (sortFrame f s).mu = s.mu ∧ (sortFrame f s).pending = s.pending := by
  simp only [sortFrame]
  (repeat' split) <;> simp

@[simp] theorem receiveGood_keeps (f : UpFrame) (s : State) :
    (receiveGood f s).now = s.now ∧ (receiveGood f s).inReset = s.inReset ∧ (receiveGood f s).sta = s.sta ∧
    (receiveGood f s).stb = s.stb ∧ (receiveGood f s).vsb = s.vsb ∧ (receiveGood f s).sa = s.sa ∧
    (receiveGood f s).tu = s.tu ∧ (receiveGood f s).du = s.du ∧ (receiveGood f s).pending = s.pending := by
  simp [receiveGood]

@[simp] theorem receiveUpstream_keeps (bs : List Byte) (s : State) :
    (receiveUpstream bs s).now = s.now ∧ (receiveUpstream bs s).inReset = s.inReset ∧
    (receiveUpstream bs s).sta = s.sta ∧ (receiveUpstream bs s).stb = s.stb ∧ (receiveUpstream bs s).vsb = s.vsb ∧
    (receiveUpstream bs s).sa = s.sa ∧ (receiveUpstream bs s).tu = s.tu ∧ (receiveUpstream bs s).du = s.du ∧
    (receiveUpstream bs s).pending = s.pending := by
  simp only [receiveUpstream]
  (repeat' split) <;> simp

@[simp] theorem setHoldLow_keeps (v : Bool) (s : State) :
    (setHoldLow v s).now = s.now ∧ (setHoldLow v s).inReset = s.inReset ∧ (setHoldLow v s).sta = s.sta ∧
    (setHoldLow v s).stb = s.stb ∧ (setHoldLow v s).vsb = s.vsb ∧ (setHoldLow v s).sa = s.sa ∧
    (setHoldLow v s).tu = s.tu ∧ (setHoldLow v s).du = s.du ∧ (setHoldLow v s).cm = s.cm ∧
    (setHoldLow v s).up = s.up ∧ (setHoldLow v s).pending = s.pending := by
  simp only [setHoldLow]
  (repeat' split) <;> simp

@[simp] theorem rejoinBroken_keeps (l : Link) (s : State) (k : Slot) :
    (rejoinBroken l s k).now = s.now ∧ (rejoinBroken l s k).inReset = s.inReset ∧ (rejoinBroken l s k).sta = s.sta ∧
    (rejoinBroken l s k).stb = s.stb ∧ (rejoinBroken l s k).vsb = s.vsb ∧ (rejoinBroken l s k).sa = s.sa ∧
    (rejoinBroken l s k).tu = s.tu ∧ (rejoinBroken l s k).pb = s.pb ∧ (rejoinBroken l s k).du = s.du ∧
    (rejoinBroken l s k).cm = s.cm ∧ (rejoinBroken l s k).up = s.up ∧ (rejoinBroken l s k).mu = s.mu ∧
    (rejoinBroken l s k).pending = s.pending := by
  simp only [rejoinBroken]
  (repeat' split) <;> simp

@[simp] theorem rejoinAll_keeps (s : State) :
    (rejoinAll s).now = s.now ∧ (rejoinAll s).inReset = s.inReset ∧ (rejoinAll s).sta = s.sta ∧
    (rejoinAll s).stb = s.stb ∧ (rejoinAll s).vsb = s.vsb ∧ (rejoinAll s).sa = s.sa ∧ (rejoinAll s).tu = s.tu ∧
    (rejoinAll s).pb = s.pb ∧ (rejoinAll s).du = s.du ∧ (rejoinAll s).cm = s.cm ∧ (rejoinAll s).up = s.up ∧
    (rejoinAll s).mu = s.mu ∧ (rejoinAll s).pending = s.pending := by
  unfold rejoinAll
  refine ⟨?_, ?_, ?_, ?_, ?_, ?_, ?_, ?_, ?_, ?_, ?_, ?_, ?_⟩
  · rw [foldl_keeps (fun s => s.now) _ (by intros; simp), foldl_keeps (fun s => s.now) _ (by intros; simp)]
  · rw [foldl_keeps (fun s => s.inReset) _ (by intros; simp), foldl_keeps (fun s => s.inReset) _ (by intros; simp)]
  · rw [foldl_keeps (fun s => s.sta) _ (by intros; simp), foldl_keeps (fun s => s.sta) _ (by intros; simp)]
  · rw [foldl_keeps (fun s => s.stb) _ (by intros; simp), foldl_keeps (fun s => s.stb) _ (by intros; simp)]
  · rw [foldl_keeps (fun s => s.vsb) _ (by intros; simp), foldl_keeps (fun s => s.vsb) _ (by intros; simp)]
  · rw [foldl_keeps (fun s => s.sa) _ (by intros; simp), foldl_keeps (fun s => s.sa) _ (by intros; simp)]
  · rw [foldl_keeps (fun s => s.tu) _ (by intros; simp), foldl_keeps (fun s => s.tu) _ (by intros; simp)]
  · rw [foldl_keeps (fun s => s.pb) _ (by intros; simp), foldl_keeps (fun s => s.pb) _ (by intros; simp)]
  · rw [foldl_keeps (fun s => s.du) _ (by intros; simp), foldl_keeps (fun s => s.du) _ (by intros; simp)]
  · rw [foldl_keeps (fun s => s.cm) _ (by intros; simp), foldl_keeps (fun s => s.cm) _ (by intros; simp)]
  · rw [foldl_keeps (fun s => s.up) _ (by intros; simp), foldl_keeps (fun s => s.up) _ (by intros; simp)]
  · rw [foldl_keeps (fun s => s.mu) _ (by intros; simp), foldl_keeps (fun s => s.mu) _ (by intros; simp)]
  · rw [foldl_keeps (fun s => s.pending) _ (by intros; simp), foldl_keeps (fun s => s.pending) _ (by intros; simp)]

@[simp] theorem stepCounter_keeps (n : Int) (s : State) :
    (stepCounter n s).now = s.now ∧ (stepCounter n s).inReset = s.inReset ∧ (stepCounter n s).sta = s.sta ∧
    (stepCounter n s).stb = s.stb ∧ (stepCounter n s).sa = s.sa ∧ (stepCounter n s).tu = s.tu ∧
    (stepCounter n s).pb = s.pb ∧ (stepCounter n s).links = s.links ∧ (stepCounter n s).du = s.du ∧
    (stepCounter n s).cm = s.cm ∧ (stepCounter n s).up = s.up ∧ (stepCounter n s).mu = s.mu ∧
    (stepCounter n s).pending = s.pending := by
  simp only [stepCounter]
  (repeat' split) <;> simp

@[simp] theorem countPhaseError_keeps (s : State) :
    (countPhaseError s).now = s.now ∧ (countPhaseError s).inReset = s.inReset ∧ (countPhaseError s).sta = s.sta ∧
    (countPhaseError s).stb = s.stb ∧ (countPhaseError s).sa = s.sa ∧ (countPhaseError s).tu = s.tu ∧
    (countPhaseError s).pb = s.pb ∧ (countPhaseError s).links = s.links ∧ (countPhaseError s).du = s.du ∧
    (countPhaseError s).cm = s.cm ∧ (countPhaseError s).up = s.up ∧ (countPhaseError s).mu = s.mu ∧
    (countPhaseError s).pending = s.pending := by
  simp only [countPhaseError]
  (repeat' split) <;> simp

@[simp] theorem captureEdge_keeps (n : Nat) (s : State) :
    (captureEdge n s).now = s.now ∧ (captureEdge n s).inReset = s.inReset ∧ (captureEdge n s).sta = s.sta ∧
    (captureEdge n s).stb = s.stb ∧ (captureEdge n s).sa = s.sa ∧ (captureEdge n s).tu = s.tu ∧
    (captureEdge n s).pb = s.pb ∧ (captureEdge n s).links = s.links ∧ (captureEdge n s).du = s.du ∧
    (captureEdge n s).cm = s.cm ∧ (captureEdge n s).up = s.up ∧ (captureEdge n s).mu = s.mu ∧
    (captureEdge n s).pending = s.pending := by
  simp only [captureEdge]
  (repeat' split) <;> simp

@[simp] theorem takeEdge_keeps (s : State) :
    (takeEdge s).now = s.now ∧ (takeEdge s).inReset = s.inReset ∧ (takeEdge s).sta = s.sta ∧
    (takeEdge s).stb = s.stb ∧ (takeEdge s).sa = s.sa ∧ (takeEdge s).tu = s.tu ∧ (takeEdge s).pb = s.pb ∧
    (takeEdge s).links = s.links ∧ (takeEdge s).du = s.du ∧ (takeEdge s).cm = s.cm ∧ (takeEdge s).up = s.up ∧
    (takeEdge s).mu = s.mu ∧ (takeEdge s).pending = s.pending := by
  simp only [takeEdge]
  (repeat' split) <;> simp

@[simp] theorem steerZero_keeps (s : State) :
    (steerZero s).now = s.now ∧ (steerZero s).inReset = s.inReset ∧ (steerZero s).sta = s.sta ∧
    (steerZero s).stb = s.stb ∧ (steerZero s).sa = s.sa ∧ (steerZero s).tu = s.tu ∧ (steerZero s).pb = s.pb ∧
    (steerZero s).links = s.links ∧ (steerZero s).du = s.du ∧ (steerZero s).cm = s.cm ∧ (steerZero s).up = s.up ∧
    (steerZero s).mu = s.mu ∧ (steerZero s).pending = s.pending := by
  simp [steerZero]

@[simp] theorem applyVehicleFrame_keeps (f : VehicleFrame) (s : State) :
    (applyVehicleFrame f s).now = s.now ∧ (applyVehicleFrame f s).inReset = s.inReset ∧
    (applyVehicleFrame f s).sta = s.sta ∧ (applyVehicleFrame f s).stb = s.stb ∧ (applyVehicleFrame f s).sa = s.sa ∧
    (applyVehicleFrame f s).tu = s.tu ∧ (applyVehicleFrame f s).du = s.du ∧ (applyVehicleFrame f s).cm = s.cm ∧
    (applyVehicleFrame f s).up = s.up ∧ (applyVehicleFrame f s).pending = s.pending := by
  simp only [applyVehicleFrame]
  (repeat' split) <;> simp

@[simp] theorem expireField_keeps (f : VField) (s : State) :
    (expireField f s).now = s.now ∧ (expireField f s).inReset = s.inReset ∧ (expireField f s).sta = s.sta ∧
    (expireField f s).stb = s.stb ∧ (expireField f s).sa = s.sa ∧ (expireField f s).tu = s.tu ∧
    (expireField f s).du = s.du ∧ (expireField f s).cm = s.cm ∧ (expireField f s).up = s.up ∧
    (expireField f s).pending = s.pending := by
  simp only [expireField]
  (repeat' split) <;> simp

end Sys2Proof.Machine
end

