-- ==== Sys2Proof/Laws/Events.lean ====
section
/-! SUPPORT. What the shared operations of an event come to, each said once in the terms of Safety: the gate of an
event, timers, messages, and the changes a vehicle event brings. -/

namespace Sys2Proof.Machine

/-- An event that is taken whenever RESETN is high is its effect. -/
theorem running_awake {s : State} (h : s.inReset = false) (f : State → State) : running s f = .next (f s) := by
  simp [running, h]

/-- An event whose occasion holds is its effect. -/
theorem whenever_holds {s : State} {b : Bool} (h : s.inReset = false) (hb : b = true) (f : State → State) :
    whenever b s f = .next (f s) := by
  simp [whenever, running, h, hb]

/-- Starting a timer, in the terms of the statements. -/
theorem startTimer_eq (s : State) (ms : Nat) : startTimer s.now ms = timerIn s ms := by
  simp [startTimer, timerIn, msToUs, Nat.mul_comm]

/-- Sending a raw value that may have changed adds its report, or none. -/
theorem sendIfChanged_eq (c : Cond) (l : Option Link) (old new : Bool) (s : State) :
    sendIfChanged c l old new s = { s with mail := { s.mail with levels := s.mail.levels ++ changed c l old new } } :=
        by
  unfold sendIfChanged changed
  split
  · simp
  · rfl

/-- Sending the stale raw values (R17). -/
theorem reportStale_eq (s : State) : reportStale s = withVsb s.vsb s := by
  simp [reportStale, sendIfChanged_eq, withVsb, staleChanges, rawsWith, vehicleRaws, List.append_assoc]

/-- What follows a change that concerns speed (section 1.5). -/
theorem speedChanged_eq (v : Vsb) (s : State) : speedChanged { s with vsb := v } = afterSpeed v s := by
  simp [speedChanged, reportStale_eq, reselectSpeed, afterSpeed, withVsb]

/-- What follows a change that concerns steering (section 1.5). -/
theorem steerChanged_eq (v : Vsb) (s : State) : steerChanged { s with vsb := v } = afterSteer v s := by
  simp [steerChanged, reportStale_eq, reselectSteer, afterSteer, withVsb, reportDisagree, sendIfChanged_eq]

/-- What follows a change that concerns both (section 1.5). -/
theorem vehicleChanged_eq (v : Vsb) (s : State) : vehicleChanged { s with vsb := v } = afterVehicle v s := by
  simp [vehicleChanged, reportStale_eq, reselectSteer, reselectSpeed, afterVehicle, afterSteer, withVsb,
      reportDisagree, sendIfChanged_eq]

/-- A frame input after a frame (R2). -/
theorem updateInput_eq {α : Type} (s : State) (lim : Nat) (x : Option α) (i : FrameInput α) :
    updateInput s.now lim x i = writtenIf s lim x i := by
  cases x <;> simp [updateInput, writtenIf, written, startTimer_eq s]

/-- When a beam request triggers a build (R4). -/
theorem requestTriggers_iff (x : Option BeamRequest) (i : FrameInput BeamRequest) : requestTriggers x i = true ↔
    (x.isSome = true ∧ (i.fresh = false ∨ x ≠ i.value)) := by
  cases x with
  | none => simp [requestTriggers]
  | some a => simp [requestTriggers, Ne, @eq_comm _ i.value]

/-- Two changes of one link are one. -/
theorem updLink_updLink (l : Link) (f g : Slc →
    Slc) (s : State) : updLink l f (updLink l g s) = updLink l (fun c => f (g c)) s := by
  simp [updLink]

/-- A change of a link, with the link written out. -/
theorem updLink_set (l : Link) (f : Slc →
    Slc) (s : State) : updLink l f s = { s with links := s.links.set l (f (s.links.get l)) } := rfl

end Sys2Proof.Machine
end

