-- ==== Sys2Proof/Laws/Builds.lean ====
section
/-! SUPPORT. What a build trigger and the start of a build may change, and how the hard limits bound a level
(chapters 4 and 5). -/

namespace Sys2Proof.Machine

/-- Nothing changed but messages and what each link last sent CM. -/
def OnlyReports (s t : State) : Prop := t = { s with mail := buildMail s.mail t.mail, links :=
      { left := { s.links.left with sent := t.links.left.sent }
        right := { s.links.right with sent := t.links.right.sent } } }

/-- It holds of no change. -/
theorem OnlyReports.refl (s : State) : OnlyReports s s := rfl

/-- It holds of two such changes in a row. -/
theorem OnlyReports.trans {s t u : State} (h1 : OnlyReports s t) (h2 : OnlyReports t u) : OnlyReports s u := by
  unfold OnlyReports at *
  rw [h2, h1]
  simp [buildMail]

/-- A link that reports changes no more than that (R112). -/
theorem reportLink_onlyReports (l : Link) (s : State) : OnlyReports s (reportLink l s) := by
  unfold reportLink
  simp only [sendIfChanged_eq]
  cases l <;> simp [OnlyReports, updLink, buildMail, Both.set, Both.get]

/-- A table that comes into force changes no more than that (R18, R38, R112, R137). -/
theorem tableLives_onlyReports (id : TableId) (b : Tables) (s : State) : OnlyReports s (tableLives id b s) := by
  cases id <;> simp only [tableLives, reportLinks] <;>
    first
    | exact OnlyReports.refl _
    | exact (reportLink_onlyReports _ _).trans (reportLink_onlyReports _ _)

/-- Nor do several. -/
theorem fold_tableLives_onlyReports (l : List TableId) (b : Tables) (s : State) :
    OnlyReports s (l.foldl (fun s id => tableLives id b s) s) := by
  induction l generalizing s with
  | nil => exact OnlyReports.refl _
  | cons x xs ih => exact (tableLives_onlyReports x b s).trans (ih _)

/-- A link that reports changes only the level reports under way. -/
theorem reportLink_mail (l : Link) (s : State) :
    (reportLink l s).mail = { s.mail with levels := (reportLink l s).mail.levels } := by
  unfold reportLink; simp only [sendIfChanged_eq]; simp

/-- The notices a table sends when it comes into force. -/
theorem tableLives_counts (id : TableId) (b : Tables) (s : State) :
   (tableLives id b s).mail.vehicleParams = s.mail.vehicleParams + (decide (id = .vehicle)).toNat ∧
   (tableLives id b s).mail.classPolicy = s.mail.classPolicy + (decide (id = .classPolicy)).toNat ∧
   (tableLives id b s).mail.condTable.length = s.mail.condTable.length + (decide (id = .condition)).toNat := by
  cases id <;> simp [tableLives, reportLinks] <;> (rw [reportLink_mail, reportLink_mail]; simp)

/-- The notices several tables send. -/
theorem fold_tableLives_counts (l : List TableId) (b : Tables) (s : State) :
   let t := l.foldl (fun s id => tableLives id b s) s
   t.mail.vehicleParams = s.mail.vehicleParams + l.count .vehicle ∧
   t.mail.classPolicy = s.mail.classPolicy + l.count .classPolicy ∧
   t.mail.condTable.length = s.mail.condTable.length + l.count .condition := by
  induction l generalizing s with
  | nil => simp
  | cons x xs ih =>
    obtain ⟨h1, h2, h3⟩ := ih (tableLives x b s)
    obtain ⟨i1, i2, i3⟩ := tableLives_counts x b s
    simp only [List.foldl_cons]
    rw [h1, h2, h3, i1, i2, i3]
    simp only [List.count_cons]
    cases x <;> simp <;> omega

/-- A table stands once among the staged ones, or not at all. -/
theorem count_isStaged (st : Staging) (id : TableId) (h : allTables.count id = 1) :
    (allTables.filter (isStaged st)).count id = (isStaged st id).toNat := by
  cases hs : isStaged st id with
  | true => rw [List.count_filter hs, h]; rfl
  | false => apply List.count_eq_zero.2; intro hm; rw [List.mem_filter, hs] at hm; simp at hm

/-- A build start that takes a commit (R64). -/
theorem takeCommit_pending (s : State) (h : s.mu.commitPending = true) :
  OnlyReports { s with
      mu := { s.mu with tables := overlay s.mu.staged s.mu.tables, staged := emptyStaging, commitPending := false }
      pb := { s.pb with stats := bumpAt Stat.pbCommitsTaken s.pb.stats } } (takeCommit s) ∧
   (takeCommit s).mail.vehicleParams = s.mail.vehicleParams + s.mu.staged.vehicle.isSome.toNat ∧
   (takeCommit s).mail.classPolicy = s.mail.classPolicy + s.mu.staged.classPolicy.isSome.toNat ∧
   (takeCommit s).mail.condTable.length = s.mail.condTable.length + s.mu.staged.condition.isSome.toNat := by
  have hf := fold_tableLives_onlyReports (allTables.filter (isStaged s.mu.staged)) s.mu.tables { s with
      mu := { s.mu with tables := overlay s.mu.staged s.mu.tables, staged := emptyStaging, commitPending := false }
      pb := { s.pb with stats := bumpAt Stat.pbCommitsTaken s.pb.stats } }
  have hc := fold_tableLives_counts (allTables.filter (isStaged s.mu.staged)) s.mu.tables { s with
      mu := { s.mu with tables := overlay s.mu.staged s.mu.tables, staged := emptyStaging, commitPending := false }
      pb := { s.pb with stats := bumpAt Stat.pbCommitsTaken s.pb.stats } }
  unfold takeCommit
  rw [if_pos h]
  obtain ⟨c1, c2, c3⟩ := hc
  refine ⟨hf, ?_, ?_, ?_⟩
  · simp only [c1]; rw [count_isStaged _ _ (by decide)]; rfl
  · simp only [c2]; rw [count_isStaged _ _ (by decide)]; rfl
  · simp only [c3]; rw [count_isStaged _ _ (by decide)]; rfl

/-- A trigger with no build in flight starts one (R61). -/
theorem trigger_start (s : State) (h : s.pb.build = none) : trigger s = buildStart s := by simp [trigger, h]

/-- A shadow never raises a level (R86, R93). -/
theorem shade_le (g : SegMapEntry) (sh : List Shadow) (i : SegNo) (x : Nat) : shade g sh i x ≤ x := by
  unfold shade; split
  · induction sh generalizing x with
    | nil => simp
    | cons a as ih => simp only [List.foldl_cons]; refine (ih _).trans ?_; split <;> omega
  · exact le_rfl

/-- A shadow that covers a HIGH segment holds it at or below its level (R86, R93). -/
theorem shade_le_level (g : SegMapEntry) (sh : List Shadow) (i : SegNo) (x : Nat) (h : Shadow) (hm : h ∈ sh) (hh :
    g.high.get i = true) (hc : covers g h.box i = true) : shade g sh i x ≤ h.level := by
  unfold shade; rw [if_pos hh]
  have mono : ∀ (l : List Shadow) (x :
      Nat), l.foldl (fun x s => if covers g s.box i then min x s.level else x) x ≤ x := by
    intro l; induction l with
    | nil => simp
    | cons a as ih => intro x; simp only [List.foldl_cons]; refine (ih _).trans ?_; split <;> omega
  induction sh generalizing x with
  | nil => simp at hm
  | cons a as ih =>
    simp only [List.foldl_cons]
    simp at hm
    rcases hm with rfl | hm
    · rw [hc]; refine (mono _ _).trans ?_; simp
    · exact ih _ hm

end Sys2Proof.Machine
end

