-- ==== Sys2Proof/Laws/ConditionLaws.lean ====
section
/-! SUPPORT. What the shared operations of the Condition Monitor do (chapter 8). -/

namespace Sys2Proof.Machine

/-- Conditions of one number are one condition. -/
theorem condNo_inj : ∀ c d : Cond, condNo c = condNo d → c = d := by intro c d; cases c <;> cases d <;> decide

/-- The action level is the highest action of a condition in FAULT (R143). -/
theorem actionLevel_highest (table : Row 16 CondEntry) (recs : Row 16 CondRec) :
   (∀ d, (recs.get (condNo d)).state = .fault →
       actionNo (table.get (condNo d)).action ≤ actionNo (actionLevel table recs)) ∧
   (actionLevel table recs = .none ∨ ∃ d, (recs.get (condNo d)).state = .fault ∧
       (table.get (condNo d)).action = actionLevel table recs) := by
  have gen : ∀ (l : List Cond) (a : Action),
     let f := l.foldl (fun a c => if (recs.get (condNo c)).state =
         .fault then higherAction a (table.get (condNo c)).action else a) a
     actionNo a ≤ actionNo f ∧ (∀ d ∈ l, (recs.get (condNo d)).state = .fault →
         actionNo (table.get (condNo d)).action ≤ actionNo f) ∧
     (f = a ∨ ∃ d, (recs.get (condNo d)).state = .fault ∧ (table.get (condNo d)).action = f) := by
    intro l
    induction l with
    | nil => intro a; simp
    | cons c cs ih =>
      intro a
      simp only [List.foldl_cons]
      by_cases hc : (recs.get (condNo c)).state = .fault
      · rw [if_pos hc]
        obtain ⟨h1, h2, h3⟩ := ih (higherAction a (table.get (condNo c)).action)
        have ha : actionNo a ≤ actionNo (higherAction a (table.get (condNo c)).action) ∧
            actionNo (table.get (condNo c)).action ≤ actionNo (higherAction a (table.get (condNo c)).action) := by
          unfold higherAction; split <;> omega
        refine ⟨by omega, ?_, ?_⟩
        · intro d hd hf
          simp at hd
          rcases hd with rfl | hd
          · omega
          · exact h2 d hd hf
        · rcases h3 with h3 | h3
          · have hh : higherAction a (table.get (condNo c)).action = (table.get (condNo c)).action ∨
                higherAction a (table.get (condNo c)).action = a := by
              unfold higherAction; split <;> simp
            rcases hh with hh | hh
            · right; exact ⟨c, hc, by rw [h3, hh]⟩
            · left; rw [h3, hh]
          · right; exact h3
      · rw [if_neg hc]
        obtain ⟨h1, h2, h3⟩ := ih a
        refine ⟨h1, ?_, h3⟩
        intro d hd hf
        simp at hd
        rcases hd with rfl | hd
        · exact absurd hf hc
        · exact h2 d hd hf
  obtain ⟨_, h2, h3⟩ := gen allConds .none
  exact ⟨fun d => h2 d (by cases d <;> decide), h3⟩

/-- When the states entered place a condition in the latched report set (R145). -/
theorem any_joins_iff (r : ReportAt) (l : List CondState) : l.any (joins r) = true ↔ (r = .alert ∧
    (CondState.alert ∈ l ∨ CondState.fault ∈ l)) ∨ (r = .fault ∧ CondState.fault ∈ l) := by
  rw [List.any_eq_true]
  constructor
  · rintro ⟨x, hx, hj⟩
    cases r <;> cases x <;> simp_all [joins]
  · rintro (⟨rfl, h | h⟩ | ⟨rfl, h⟩) <;> exact ⟨_, h, rfl⟩

/-- The latched report set after a condition may have joined it. -/
theorem latched_set_iff (x : Row 16 Bool) (b : Bool) (k i : Fin 16) :
    (if b = true then x.set k true else x).get i = true ↔ x.get i = true ∨ (i = k ∧ b = true) := by
  cases b
  · simp
  · simp only [if_true, Row.get_set]; by_cases h : i = k <;> simp [h]

/-- The settling of a move, in the order of its effects (R143, R145, R146). -/
theorem settle_eq (c : Cond) (m : Moved) (s : State) :
    let joining := m.entered.any (joins (s.mu.tables.condition.get (condNo c)).report)
    let faultMoved := m.entered.any (fun st => decide (st = .fault)) ||
      (decide ((s.cm.recs.get (condNo c)).state = .fault) && decide (m.record.state ≠ .fault))
    let recs := s.cm.recs.set (condNo c) m.record
    let action := if faultMoved then actionLevel s.mu.tables.condition recs else s.cm.action
    let latched := if joining then s.cm.latched.set (condNo c) true else s.cm.latched
    let cm := { s.cm with recs := recs, latched := latched, action := action }
    let u := if action = s.cm.action then { s with cm := cm } else trigger { s with cm := cm }
    settle c m s = if joining && !s.cm.outstanding then placeNotice u else u := by
  intro joining faultMoved recs action latched cm u
  have ho : u.cm.outstanding = s.cm.outstanding := by
    simp only [u]
    split <;> simp [cm]
  have e : (if faultMoved = true then reworkAction { s with cm := { s.cm with recs := recs, latched := latched } }
      else { s with cm := { s.cm with recs := recs, latched := latched } }) = u := by
    simp only [u, cm, action, reworkAction]
    by_cases hf : faultMoved = true
    · by_cases ha : actionLevel s.mu.tables.condition recs = s.cm.action <;> simp [hf, ha]
    · simp [hf]
  unfold settle
  simp only
  rw [← e] at ho ⊢
  rw [ho]

/-- What placing a NOTICE changes in CM (R146). -/
theorem placeNotice_cm (u : State) :
    let stat := if u.up.notice.isSome then Stat.cmNoticesReplaced else Stat.cmNotices
    (placeNotice u).cm = { u.cm with outstanding := true, stats := bumpAt stat u.cm.stats } := rfl

/-- The latched report set holds a condition just where some place is set. -/
theorem anyLatched_iff (x : Row 16 Bool) : anyLatched x = true ↔ ∃ i, x.get i = true := by
  unfold anyLatched; rw [List.any_eq_true]
  constructor
  · rintro ⟨c, _, h⟩; exact ⟨_, h⟩
  · rintro ⟨i, h⟩
    have : ∃ c, c ∈ allConds ∧ condNo c = i := by clear h; revert i; decide
    obtain ⟨c, hc, rfl⟩ := this
    exact ⟨c, hc, h⟩

/-- What CLEAR_NOTICE leaves in the latched report set (R147). -/
theorem dropLatched_get (ns : List Byte) (x : Row 16 Bool) (i : Fin 16) (h : ∀ n ∈ ns, n.toNat ≤ 15) :
    (dropLatched ns x).get i = true ↔ x.get i = true ∧ ∀ n ∈ ns, n.toNat ≠ i.val := by
  unfold dropLatched
  induction ns generalizing x with
  | nil => simp
  | cons n ns ih =>
    simp only [List.foldl_cons]
    rw [ih _ (fun m hm => h m (by simp [hm]))]
    have hn := h n (by simp)
    have : (Fin.ofNat 16 n.toNat).val = n.toNat := by simp; omega
    rw [Row.get_set]
    by_cases hi : i = Fin.ofNat 16 n.toNat
    · rw [if_pos hi]; simp
      intro _ hne; exfalso; apply hne; rw [hi]; exact this.symm
    · rw [if_neg hi]; simp
      intro _ _ hc; apply hi; apply Fin.ext; rw [this]; exact hc.symm

/-- A report taken at once, with none of its condition and link waiting, is just taken (R135, R153). -/
theorem takeReportNow_eq (x : LevelReport) (s : State)
    (none_waits : ∀ y ∈ s.mail.levels, reportsOn x.cond x.link y = false) :
    takeReportNow x s = takeLevelReport x s := by
  have waiting : s.mail.levels.filter (reportsOn x.cond x.link) = [] := by
    rw [List.filter_eq_nil_iff]
    intro y hy
    simp [none_waits y hy]
  have others : s.mail.levels.filter (fun y => !reportsOn x.cond x.link y) = s.mail.levels := by
    rw [List.filter_eq_self]
    intro y hy
    simp [none_waits y hy]
  simp [takeReportNow, waiting, others]

/-- The latched report set as a number, over the first conditions: bit n is condition n. -/
theorem latchedNumber_prefix (r : Row 16 Bool) (n : Nat) (hn : n ≤ 16) :
    let x := ((List.finRange 16).take n).foldl (fun x i => if r.get i then x + 2 ^ i.val else x) 0
    x < 2 ^ n ∧ ∀ j : Fin 16, x.testBit j.val = (decide (j.val < n) && r.get j) := by
  induction n with
  | zero => simp
  | succ n ih =>
    obtain ⟨below, bits⟩ := ih (by omega)
    have hl : n < (List.finRange 16).length := by simp; omega
    simp only [List.take_succ_eq_append_getElem hl, List.foldl_append, List.foldl_cons, List.foldl_nil] at *
    generalize ((List.finRange 16).take n).foldl (fun x i => if r.get i then x + 2 ^ i.val else x) 0 = x at *
    simp only [List.getElem_finRange, Fin.val_cast] at *
    have hp : 2 ^ (n + 1) = 2 ^ n + 2 ^ n := by rw [Nat.pow_succ]; omega
    have hn' : n < 16 := by omega
    constructor
    · split <;> omega
    · intro j
      rcases Nat.lt_trichotomy j.val n with hlt | heq | hgt
      · have : ¬j.val = n := by omega
        split
        · rw [show x + 2 ^ n = 2 ^ n * 1 + x by omega, Nat.testBit_two_pow_mul_add _ below, if_pos hlt, bits]
          simp [hlt]; omega
        · rw [bits]; simp [hlt]; omega
      · have e : j = ⟨n, hn'⟩ := Fin.ext heq
        subst e
        have zero : x.testBit n = false := Nat.testBit_lt_two_pow below
        by_cases hg : r.get ⟨n, hn'⟩ = true
        · simp [hg, Nat.add_comm x, Nat.testBit_two_pow_add_eq, zero]
        · simp [hg, zero]
      · have none_ : ¬j.val < n + 1 := by omega
        have small : (if r.get ⟨n, hn'⟩ = true then x + 2 ^ n else x) < 2 ^ j.val :=
          lt_of_lt_of_le (by split <;> omega) (Nat.pow_le_pow_right (by decide) (show n + 1 ≤ j.val by omega))
        refine (Nat.testBit_lt_two_pow small).trans ?_
        simp [none_]

/-- The latched report set is sent in sixteen bits, bit n for condition n (sections 11.3 and 11.4). -/
theorem latchedNumber_bits (r : Row 16 Bool) :
    latchedNumber r < 65536 ∧ ∀ i : Fin 16, (latchedNumber r).testBit i.val = r.get i := by
  have h := latchedNumber_prefix r 16 (le_refl _)
  rw [List.take_of_length_le (by simp)] at h
  exact ⟨h.1, fun i => (h.2 i).trans (by simp)⟩

end Sys2Proof.Machine
end

