-- ==== Sys2Proof/Laws/Links.lean ====
section
/-! SUPPORT. What the shared operations of a link do to it (chapter 6). -/

namespace Sys2Proof.Machine

/-- The Poll group holds a frame just where some slot does. -/
theorem anyPoll_iff (poll : Row 4 (Option PollKind)) : anyPoll poll = true ↔ ∃ k, poll.get k ≠ none := by
    simp [anyPoll, allSlots, Fin.exists_fin_succ, Option.isSome_iff_ne_none]

/-- Waking changes the transmitter only, and only from IDLE with a member requesting (R115). -/
theorem wakeSlc_eq (c : Slc) :
    let requested : Prop := c.patternQ ≠ [] ∨ c.passQ ≠ [] ∨ ∃ k, c.poll.get k ≠ none
    wakeSlc c = { c with tx := if c.tx = .idle ∧ requested then .waking else c.tx } := by
  have this : (decide (c.tx = .idle) && anyRequest c) = true
      ↔ (c.tx = .idle ∧ (c.patternQ ≠ [] ∨ c.passQ ≠ [] ∨ ∃ k, c.poll.get k ≠ none)) := by
    simp [anyRequest, requests, anyPoll_iff, or_assoc]
  unfold wakeSlc
  simp only [this]
  split <;> rfl

/-- How far each slot stands behind the last served one in the serving order. -/
theorem slot_distances : ∀ ls : Slot, ((ls+1) - ls - 1).val = 0 ∧ ((ls+1+1) - ls - 1).val = 1 ∧
    ((ls+1+1+1) - ls - 1).val = 2 ∧ (ls - ls - 1).val = 3 := by decide

/-- The Poll group serves the first filled slot after the last served one (R117). -/
theorem pollChoice_spec (c : Slc) (k : Slot) (kind : PollKind) (h : c.poll.get k = some kind)
   (hj : ∀ j : Slot, (j - c.lastServed - 1).val < (k - c.lastServed - 1).val →
       c.poll.get j = none) : pollChoice c = some (k, kind) := by
  unfold pollChoice servingOrder slotAfter
  generalize hls : c.lastServed = ls at *
  simp only [List.findSome?_cons, List.findSome?_nil]
  have key : ∀ ls k : Slot, k = ls + 1 ∨ k = ls+1+1 ∨ k = ls+1+1+1 ∨ k = ls := by decide
  rcases key ls k with rfl | rfl | rfl | rfl
  · simp [h]
  · have := hj (ls+1) (by have := slot_distances ls; clear hj; omega)
    simp [h, this]
  · have h1 := hj (ls+1) (by have := slot_distances ls; clear hj; omega)
    have h2 := hj (ls+1+1) (by have := slot_distances ls; clear hj; omega)
    simp [h, h1, h2]
  · have h1 := hj (k+1) (by have := slot_distances k; clear hj; omega)
    have h2 := hj (k+1+1) (by have := slot_distances k; clear hj; omega)
    have h3 := hj (k+1+1+1) (by have := slot_distances k; clear hj; omega)
    simp [h, h1, h2, h3]

/-- Offering a frame to the Pass queue changes its link only (R114). -/
theorem offerPass_eq (l : Link) (f : PassFrame) (s : State) :
    offerPass l f s = updLink l (fun c =>
      if c.passQ.length < 8 then wakeSlc { c with passQ := c.passQ ++ [f] }
      else { c with stats := bumpAt Stat.lnkPassDropped c.stats }) s := by
  unfold offerPass wake countLink passCapacity
  rw [updLink_updLink]
  split <;> rename_i q <;> simp [updLink, q]

/-- Waking changes no queue, record or Poll group entry. -/
theorem wakeSlc_keeps (c : Slc) : (wakeSlc c).modules = c.modules ∧ (wakeSlc c).poll = c.poll
    ∧ (wakeSlc c).patternQ = c.patternQ ∧ (wakeSlc c).passQ = c.passQ := by
  unfold wakeSlc
  split <;> simp

/-- A link that reports changes no queue, record or Poll group entry. -/
theorem reportLink_links (l : Link) (s : State) (m : Link) :
    ((reportLink l s).links.get m).modules = (s.links.get m).modules
    ∧ ((reportLink l s).links.get m).poll = (s.links.get m).poll
    ∧ ((reportLink l s).links.get m).patternQ = (s.links.get m).patternQ
    ∧ ((reportLink l s).links.get m).passQ = (s.links.get m).passQ := by
  unfold reportLink
  simp only [sendIfChanged_eq]
  by_cases h : m = l
  · subst h; simp [updLink]
  · simp [updLink, h]

/-- A record that has just entered JOINING (R105). -/
def joiningRec (m : ModuleRec) : ModuleRec :=
  { m with state := .joining, misses := 0, outstanding := none }

/-- A module that enters JOINING changes its own record and Poll group entry (R105). -/
theorem enterJoining_links (l : Link) (k : Slot) (s : State) (m : Link) :
    let t := (enterJoining l k s).links.get m
    let c := s.links.get m
    t.modules = (if m = l then c.modules.modify k joiningRec else c.modules)
    ∧ t.poll = (if m = l then c.poll.set k (some .join) else c.poll)
    ∧ t.patternQ = c.patternQ ∧ t.passQ = c.passQ := by
  simp only
  have hj : joiningRec = fun m => { m with state := .joining, misses := 0, outstanding := none } := rfl
  unfold enterJoining wake joinSlot
  split
  · rw [(reportLink_links _ _ _).1, (reportLink_links _ _ _).2.1, (reportLink_links _ _ _).2.2.1,
      (reportLink_links _ _ _).2.2.2, updLink_updLink, hj]
    by_cases h : m = l
    · subst h; simp [updLink, wakeSlc_keeps]
    · simp [updLink, h]
  · rw [updLink_updLink, hj]
    by_cases h : m = l
    · subst h; simp [updLink, wakeSlc_keeps]
    · simp [updLink, h]

/-- The set-up of a link: its records, its Poll group and its Pattern queue (R103). -/
theorem setUpLink_links (l : Link) (s : State) (m : Link) :
    let t := (setUpLink l s).links.get m
    let c := s.links.get m
    let entries := s.mu.tables.modules.get l
    t.modules = (if m = l then entries.map moduleSetUp else c.modules)
    ∧ t.poll = (if m = l then entries.map pollSetUp else c.poll)
    ∧ t.patternQ = (if m = l then c.patternQ.filter fun x => match x with
        | .block k _ _ => (entries.get k).present
        | .apply _ => true
      else c.patternQ) := by
  simp only
  unfold setUpLink wake
  simp only [updLink_updLink]
  by_cases hm : m = l
  · subst hm
    simp only [updLink, Both.get_set_same, wakeSlc_keeps, if_true, true_and]
    first
      | done
      | exact List.filter_congr fun f _ => by cases f <;> rfl
  · simp [updLink, hm]

/-- The set-up of a link, whole: its controller and the four raw values on their way to CM (R103, R122). -/
theorem setUpLink_eq (l : Link) (s : State) :
    let c := s.links.get l
    let rows := s.mu.tables.modules.get l
    let poll := rows.map pollSetUp
    let queue := c.patternQ.filter fun x => match x with
      | .block k _ _ => (rows.get k).present
      | .apply _ => true
    let raws := linkRaws s.mu.tables l (rows.map moduleSetUp)
    setUpLink l s = { s with
      links := s.links.set l { c with
        modules := rows.map moduleSetUp, poll := poll, patternQ := queue, sent := raws
        tx := if c.tx = .idle ∧ (queue ≠ [] ∨ c.passQ ≠ [] ∨ ∃ k, poll.get k ≠ none) then .waking else c.tx }
      mail := { s.mail with levels := s.mail.levels ++ linkReports l raws } } := by
  simp only [setUpLink, wake, updLink_updLink, wakeSlc_eq]
  simp only [updLink, Both.get_set_same]
  first
    | done
    | rfl

/-- A link that reports, whole: each raw value that differs from the one last sent is on its way to CM (R112). -/
theorem reportLink_eq (l : Link) (s : State) :
    let c := s.links.get l
    let raws := linkRaws s.mu.tables l c.modules
    let levels := s.mail.levels
      ++ changed .moduleBroken (some l) c.sent.broken raws.broken
      ++ changed .moduleSelfFallback (some l) c.sent.selfFallback raws.selfFallback
      ++ changed .segmentFailed (some l) c.sent.segFailed raws.segFailed
      ++ changed .overtemp (some l) c.sent.overtemp raws.overtemp
    reportLink l s = { s with
      links := s.links.set l { c with sent := raws }, mail := { s.mail with levels := levels } } := by
  simp only [reportLink, sendIfChanged_eq, updLink]

/-- A miss: the module's count, LNK_MISSES, and at the miss limit the break (R108). -/
theorem miss_eq (l : Link) (k : Slot) (s : State) :
    let c := s.links.get l
    let missed : ModuleRec := { c.modules.get k with misses := min 15 ((c.modules.get k).misses + 1) }
    let counted := { c with modules := c.modules.set k missed, stats := bumpAt Stat.lnkMisses c.stats }
    let t := { s with links := s.links.set l counted }
    let breaks : Prop := (missed.state = .joining ∨ missed.state = .active) ∧ s.mu.tables.link.missLimit ≤ missed.misses
    miss l k s = if breaks then becomeBroken l k t else t := by
  intro c missed counted t breaks
  have step : countLink l Stat.lnkMisses (updModule l k (fun m => { m with misses := min 15 (m.misses + 1) }) s) = t := by
    simp only [countLink, updModule, updLink_updLink]; rfl
  have recd : moduleRec t l k = missed := by simp [moduleRec, t, counted]
  have cond : ((decide (missed.state = .joining) || decide (missed.state = .active))
      && decide (s.mu.tables.link.missLimit ≤ missed.misses)) = true ↔ breaks := by simp [breaks]
  unfold miss
  simp only [step, recd, show t.mu = s.mu from rfl, cond]

/-- What isolation ON leaves of a controller whose module becomes BROKEN (R109). -/
theorem silence_eq (k : Slot) (c : Slc) : silence k c = { c with
    modules := c.modules.modify k fun m => { m with outstanding := none }
    poll := c.poll.set k none
    patternQ := c.patternQ.filter fun f => match f with | .block j _ _ => decide (j ≠ k) | .apply _ => true } := by
  simp only [silence]
  congr 1
  apply List.filter_congr
  intro f _
  cases f <;> simp [isBlockTo]

/-- A cut to a slot that no transmission is addressed to changes nothing (R109). -/
theorem cutShort_other (l : Link) (k : Slot) (s : State)
    (h : ∀ f q, (s.links.get l).tx = .sending f q → frameAddress f ≠ some k) : cutShort l k s = s := by
  unfold cutShort
  cases ht : (s.links.get l).tx with
  | idle => rfl
  | waking => rfl
  | sending f q => exact if_neg (h f q ht)

/-- A transmission to a slot that is cut short completes at once, and the next grant is made (R109). -/
theorem cutShort_sending (l : Link) (k : Slot) (s : State) (f : LinkFrame) (q : BitVec 4)
    (ht : (s.links.get l).tx = .sending f q) (hf : frameAddress f = some k) :
    cutShort l k s = grantNext l (updLink l (countCut f) s) := by
  unfold cutShort
  simp only [ht, hf, if_true]

/-- Taking a head frame changes no record and nothing the link last sent CM. -/
theorem takeHead_keeps {w : Row 4 ModuleEntry} {m : Member} {c c' : Slc} {f : LinkFrame}
    (h : takeHead w m c = some (f, c')) : c'.modules = c.modules ∧ c'.sent = c.sent := by
  unfold takeHead at h
  cases m <;> simp only at h
  · split at h <;> simp at h
    obtain ⟨_, rfl⟩ := h
    exact ⟨rfl, rfl⟩
  · split at h <;> simp at h
    obtain ⟨_, rfl⟩ := h
    exact ⟨rfl, rfl⟩
  · rw [Option.map_eq_some_iff] at h
    obtain ⟨⟨k, kind⟩, _, h⟩ := h
    simp at h
    obtain ⟨_, rfl⟩ := h
    exact ⟨rfl, rfl⟩

/-- A grant, at the end of a transmission or of a wake sequence, changes no record and nothing the link last sent CM. -/
theorem sendOrPark_keeps (p : LinkParams) (w : Row 4 ModuleEntry) (choice : Option Member) (c : Slc) :
    (sendOrPark p w choice c).modules = c.modules ∧ (sendOrPark p w choice c).sent = c.sent := by
  unfold sendOrPark
  split
  · rename_i h
    rw [Option.bind_eq_some_iff] at h
    obtain ⟨m', _, h⟩ := h
    rw [Option.map_eq_some_iff] at h
    obtain ⟨⟨f', c''⟩, h, he⟩ := h
    simp at he
    obtain ⟨rfl, rfl, rfl⟩ := he
    have kept := takeHead_keeps h
    exact kept
  · exact ⟨rfl, rfl⟩

/-- What a link that reports last sent CM is its raw values as they stand; the other link's stays (R112). -/
theorem reportLink_sent (l m : Link) (s : State) : ((reportLink l s).links.get m).sent
    = if m = l then linkRaws s.mu.tables l (s.links.get l).modules else (s.links.get m).sent := by
  unfold reportLink
  simp only [sendIfChanged_eq]
  cases l <;> cases m <;> simp [updLink, Both.set, Both.get]

/-- The segment a window index names (R89). -/
theorem windowSegment_eq_some (e : ModuleEntry) (n : Nat) (i : SegNo) : windowSegment e n = some i
    ↔ n < e.rowCount * e.columnCount
      ∧ i.val = (e.firstRow + n / e.columnCount) * 24 + (e.firstColumn + n % e.columnCount) := by
  unfold windowSegment
  constructor
  · intro h
    split at h <;> simp at h
    rename_i hn
    obtain ⟨_, rfl⟩ := h
    exact ⟨hn, rfl⟩
  · rintro ⟨h1, h2⟩
    rw [if_pos (show n < windowSize e from h1)]
    have := i.isLt
    simp only
    rw [dif_pos (by omega)]
    simp [← h2]

/-- Every index below a well-placed window's size names a segment (R101, R89). -/
theorem windowSegment_isSome (e : ModuleEntry) (h1 : e.firstRow + e.rowCount ≤ 4)
    (h2 : e.firstColumn + e.columnCount ≤ 24) (k : Nat) (hk : k < e.rowCount * e.columnCount) :
    ∃ i, windowSegment e k = some i := by
  have hc : 0 < e.columnCount := by
    rcases Nat.eq_zero_or_pos e.columnCount with h | h
    · simp [h] at hk
    · exact h
  have hr : k / e.columnCount < e.rowCount := Nat.div_lt_of_lt_mul (by rw [Nat.mul_comm]; exact hk)
  have hm := Nat.mod_lt k hc
  refine ⟨⟨(e.firstRow + k / e.columnCount) * 24 + (e.firstColumn + k % e.columnCount), by omega⟩, ?_⟩
  rw [windowSegment_eq_some]
  exact ⟨hk, rfl⟩

/-- Filtering a run of indices that all name something gives them one for one. -/
theorem filterMap_range_total {α : Type} (f : Nat → Option α) (n : Nat) (h : ∀ k < n, ∃ x, f k = some x) :
    ((List.range n).filterMap f).length = n ∧ ∀ k, ((List.range n).filterMap f)[k]? = if k < n then f k else none := by
  induction n with
  | zero => simp
  | succ n ih =>
    obtain ⟨len, at_⟩ := ih fun k hk => h k (by omega)
    obtain ⟨x, hx⟩ := h n (by omega)
    rw [List.range_succ, List.filterMap_append]
    simp only [List.filterMap_cons, List.filterMap_nil, hx]
    refine ⟨by simp [len], fun k => ?_⟩
    rw [List.getElem?_append, len, at_]
    by_cases hk : k < n
    · simp [hk]; omega
    · by_cases e : k = n
      · subst e; simp [hx]
      · have : ¬k < n + 1 := by omega
        simp [hk, this]; omega

/-- The segments of a well-placed window, one for each index in row-major order (R89, R125). -/
theorem windowSegments_at (e : ModuleEntry) (h1 : e.firstRow + e.rowCount ≤ 4)
    (h2 : e.firstColumn + e.columnCount ≤ 24) :
    (windowSegments e).length = e.rowCount * e.columnCount
    ∧ ∀ k, (windowSegments e)[k]? = if k < e.rowCount * e.columnCount then windowSegment e k else none :=
  filterMap_range_total (windowSegment e) _ (windowSegment_isSome e h1 h2)

/-- Cutting a transmission short sends no message (R109). -/
theorem cutShort_mail (l : Link) (k : Slot) (s : State) : (cutShort l k s).mail = s.mail := by
  unfold cutShort; split
  · split <;> rfl
  · rfl
  · rfl

/-- A link that reports sends no event. -/
theorem reportLink_events (l : Link) (s : State) :
    (reportLink l s).mail.events = s.mail.events := by rw [reportLink_mail]

/-- A miss charged by DU sends no event (R108). -/
theorem chargeMiss_events (l : Link) (k : Slot) (s : State) : (chargeMiss l k s).mail.events = s.mail.events := by
  unfold chargeMiss; split
  · rfl
  · unfold miss; simp only; split
    · unfold becomeBroken; simp only; rw [reportLink_events]; split
      · rw [cutShort_mail]; rfl
      · rfl
    · rfl

end Sys2Proof.Machine
end

