-- ==== Sys2Proof/Laws/Deliveries.lean ====
section
/-! SUPPORT. What the shared operations of a delivery do (chapter 7). -/

namespace Sys2Proof.Machine

/-- The ACTIVE modules: those of the LEFT link, then those of the RIGHT one (R124). -/
theorem activeModules_eq (s : State) : activeModules s.links =
   (allSlots.filter fun k => decide (effState ((s.links.get .left).modules.get k) =
       .active)).map (fun k => (Link.left,
           k)) ++ (allSlots.filter fun k => decide (effState ((s.links.get .right).modules.get k) =
               .active)).map fun k => (Link.right, k) := by
  have : ∀ a b : ModuleState, (a == b) = decide (a = b) := by intro a b; cases a <;> cases b <;> rfl
  simp [activeModules, this]

/-- Placing blocks on a link changes that link only. -/
theorem placeBlocks_eq (l : Link) (fs : List PatternFrame) (s : State) :
    placeBlocks l fs s
      = updLink l (fun c => if fs = [] then c else wakeSlc { c with patternQ := c.patternQ ++ fs }) s := by
  unfold placeBlocks placePattern wake
  cases fs <;> simp [updLink]

/-- Setting the raw value of NO_MODULES sends it where it changed (R124). -/
theorem setNoModules_eq (v : Bool) (s : State) :
    setNoModules v s = { s with
      du := { s.du with noModules := v }
      mail := { s.mail with levels := s.mail.levels ++ changed .noModules none s.du.noModules v } } := by
  simp [setNoModules, sendIfChanged_eq]

/-- The blocks for one link, in slot order (R124, R125). -/
theorem blocksFor_eq (s : State) (g : GenRecord) (a b : List Slot) (l : Link) :
   blocksFor s.mu.tables.modules g (a.map (fun k => (Link.left, k)) ++ b.map fun k => (Link.right,
       k)) l = (match l with | .left => a | .right => b).map fun k =>
        .block k g.number ((windowSegments ((s.mu.tables.modules.get l).get k)).map (g.levels.get l).get) := by
  cases l <;> simp [blocksFor, blockFor, List.filter_append, List.filter_map, Function.comp_def]

/-- A member leaves the ack set; the last one starts the APPLY (R126 to R128). -/
theorem leaveAckSet_eq (g : GenRecord) (l : Link) (k : Slot) (stats : Row 9 Nat) (t : State) :
    let rest := t.du.ackSet.filter fun m => decide (m ≠ (l, k))
    let queued (c : Slc) : Slc := wakeSlc { c with patternQ := c.patternQ ++ [.apply g.number] }
    leaveAckSet g l k { t with du := { t.du with stats := stats } } =
      if rest = [] then { t with
        du := { t.du with ackSet := [], delivering := some (g, .applying), applyTimer := none, stats := stats }
        links := ⟨queued t.links.left, queued t.links.right⟩ }
      else { t with du := { t.du with ackSet := rest, stats := stats } } := by
  simp only [leaveAckSet, List.isEmpty_iff]
  split <;> rename_i h
  · simp only [applyNow, placePattern, wake, updLink_updLink, h]
    rfl
  · rfl

/-- A fold over ack-set members whose every step keeps a reading of the state keeps it. -/
theorem foldl_keeps_member {β} (p : State → β) (f : State → (Link × Slot) →
    State) (hf : ∀ s m, p (f s m) = p s) (l : List (Link × Slot)) (s : State) : p (l.foldl f s) = p s := by
  induction l generalizing s with
  | nil => rfl
  | cons x xs ih => rw [List.foldl_cons, ih, hf]

end Sys2Proof.Machine
end

