-- ==== Sys2Proof/Laws/PatternQueue.lean ====
section
/-! SUPPORT. How one link's Pattern queue stays in step with the delivery (R113, R124, R128 to R130): what `PatternSound`
says of one link, and what the shared operations do to it. -/

namespace Sys2Proof.Machine

/-- At most four frames, each a block of this generation. -/
def BlocksOf (gen : Byte) (fs : List PatternFrame) : Prop :=
  fs.length ≤ 4 ∧ ∀ f ∈ fs, ∃ k levels, f = .block k gen levels

/-- An APPLY is being sent. -/
def SendsApply (t : LinkTx) : Prop := ∃ gen seq, t = .sending (.pattern (.apply gen)) seq

/-- What `PatternSound` says of one link: its queue, whether its APPLY is done and whether an APPLY is being sent, against
what is being delivered. -/
def QueueAgrees (d : Option (GenRecord × Phase)) (done : Bool) (q : List PatternFrame) (sends : Prop) : Prop :=
  match d with
  | none => q = [] ∧ ¬sends
  | some (g, .blocks) => done = false ∧ BlocksOf g.number q ∧ ¬sends
  | some (g, .applying) =>
    (done = false ∧ ¬sends ∧ ∃ fs, BlocksOf g.number fs ∧ q = fs ++ [.apply g.number])
    ∨ (done = false ∧ sends ∧ q = [])
    ∨ (done = true ∧ ¬sends ∧ q = [])

/-- The agreement of one link of a state, with its own transmitter. -/
def LinkAgrees (l : Link) (s : State) : Prop :=
  QueueAgrees s.du.delivering (s.du.applyDone.get l) (s.links.get l).patternQ (SendsApply (s.links.get l).tx)

/-- A queue that agrees holds no more than five frames (R113). -/
theorem QueueAgrees.length_le {d : Option (GenRecord × Phase)} {done : Bool} {q : List PatternFrame} {sends : Prop}
    (h : QueueAgrees d done q sends) : q.length ≤ 5 := by
  unfold QueueAgrees at h
  split at h
  · simp [h.1]
  · have := h.2.1.1; omega
  · rcases h with ⟨_, _, fs, blocks, rfl⟩ | ⟨_, _, empty⟩ | ⟨_, _, empty⟩
    · have := blocks.1; simp; omega
    · simp [empty]
    · simp [empty]

/-- A state both of whose links agree is sound. -/
theorem PatternSound.ofLinks {s : State} (h : ∀ l, LinkAgrees l s) : PatternSound s := by
  refine ⟨fun l => (h l).length_le, Or.inr fun l => ?_⟩
  have agrees := h l
  unfold LinkAgrees QueueAgrees SendsApply BlocksOf at agrees
  exact agrees

/-- Both links of a sound state agree unless RESETN holds the part. -/
theorem PatternSound.link {s : State} (h : PatternSound s) (awake : s.inReset = false) (l : Link) : LinkAgrees l s := by
  rcases h.2 with held | agrees
  · rw [awake] at held; cases held
  · have := agrees l
    unfold LinkAgrees QueueAgrees SendsApply BlocksOf
    exact this

/-- Taking blocks out of a queue keeps the agreement: isolation, a set-up. -/
theorem QueueAgrees.filter {d : Option (GenRecord × Phase)} {done : Bool} {q : List PatternFrame} {sends : Prop}
    (h : QueueAgrees d done q sends) (p : PatternFrame → Bool) (keepsApply : ∀ g, p (.apply g) = true) :
    QueueAgrees d done (q.filter p) sends := by
  have blocks : ∀ g fs, BlocksOf g fs → BlocksOf g (fs.filter p) := fun g fs h =>
    ⟨(List.length_filter_le _ _).trans h.1, fun f hf => h.2 f (List.mem_of_mem_filter hf)⟩
  unfold QueueAgrees at *
  split at h
  · exact ⟨by simp [h.1], h.2⟩
  · exact ⟨h.1, blocks _ _ h.2.1, h.2.2⟩
  · rcases h with ⟨a, b, fs, h, rfl⟩ | ⟨a, b, h⟩ | ⟨a, b, h⟩
    · exact .inl ⟨a, b, fs.filter p, blocks _ _ h, by simp [keepsApply]⟩
    · exact .inr (.inl ⟨a, b, by simp [h]⟩)
    · exact .inr (.inr ⟨a, b, by simp [h]⟩)

/-- Waking starts no APPLY and ends none (R115). -/
theorem sendsApply_wakeSlc (c : Slc) : SendsApply (wakeSlc c).tx ↔ SendsApply c.tx := by
  rw [wakeSlc_eq]
  simp only
  split
  · rename_i h; simp [SendsApply, h.1]
  · rfl

/-- A frame other than an APPLY is being sent. -/
theorem not_sendsApply {f : LinkFrame} (q : BitVec 4) (h : ∀ g, f ≠ .pattern (.apply g)) :
    ¬SendsApply (.sending f q) := by
  rintro ⟨g, _, e⟩
  injection e with e _
  exact h g e

/-- A frame taken from a queue that agrees, with no APPLY being sent, leaves one that agrees (R115, R128). -/
theorem QueueAgrees.take {d : Option (GenRecord × Phase)} {done : Bool} {f : PatternFrame} {rest : List PatternFrame}
    (h : QueueAgrees d done (f :: rest) False) (q : BitVec 4) :
    QueueAgrees d done rest (SendsApply (.sending (.pattern f) q)) := by
  have tail : ∀ {g fs}, BlocksOf g (f :: fs) → BlocksOf g fs ∧ ¬SendsApply (.sending (.pattern f) q) := by
    intro g fs blocks
    obtain ⟨k, levels, rfl⟩ := blocks.2 f (by simp)
    refine ⟨⟨?_, fun x hx => blocks.2 x (by simp [hx])⟩, not_sendsApply q (by simp)⟩
    have := blocks.1
    simp at this
    omega
  unfold QueueAgrees at *
  split at h
  · simp at h
  · exact ⟨h.1, tail h.2.1⟩
  · rename_i g _
    rcases h with ⟨undone, _, fs, blocks, e⟩ | ⟨_, never, _⟩ | ⟨_, _, empty⟩
    · cases fs with
      | nil =>
        simp at e
        obtain ⟨rfl, rfl⟩ := e
        exact .inr (.inl ⟨undone, ⟨_, _, rfl⟩, rfl⟩)
      | cons b fs =>
        simp at e
        obtain ⟨rfl, rfl⟩ := e
        exact .inl ⟨undone, (tail blocks).2, fs, (tail blocks).1, rfl⟩
    · exact never.elim
    · simp at empty

/-- A grant on a link that agrees, its own transmission over, leaves it agreeing (R115 to R118). -/
theorem QueueAgrees.sendOrPark {d : Option (GenRecord × Phase)} {done : Bool} {c : Slc}
    (h : QueueAgrees d done c.patternQ False) (p : LinkParams) (w : Row 4 ModuleEntry) (choice : Option Member) :
    let t := Machine.sendOrPark p w choice c
    QueueAgrees d done t.patternQ (SendsApply t.tx) := by
  have other : ∀ t : LinkTx, ¬SendsApply t → QueueAgrees d done c.patternQ (SendsApply t) := by
    intro t none_
    rw [eq_false none_]
    exact h
  simp only
  unfold Machine.sendOrPark
  split
  · rename_i m f c' found
    rw [Option.bind_eq_some_iff] at found
    obtain ⟨m', _, found⟩ := found
    rw [Option.map_eq_some_iff] at found
    obtain ⟨⟨f', c''⟩, found, e⟩ := found
    simp at e
    obtain ⟨rfl, rfl, rfl⟩ := e
    simp only [startSending]
    unfold takeHead at found
    cases m' <;> simp only at found
    · split at found <;> simp at found
      rename_i f rest hq
      obtain ⟨rfl, rfl⟩ := found
      rw [hq] at h
      exact h.take _
    · split at found <;> simp at found
      obtain ⟨rfl, rfl⟩ := found
      exact other _ (not_sendsApply _ (by simp))
    · rw [Option.map_eq_some_iff] at found
      obtain ⟨⟨k, kind⟩, _, e⟩ := found
      simp at e
      obtain ⟨rfl, rfl⟩ := e
      exact other _ (not_sendsApply _ (by intro g; cases kind <;> simp [pollFrame]))
  · exact other _ (by rintro ⟨g, q, e⟩; simp [park] at e)

/-- What placing frames does to each link's queue and transmitter (R113). -/
theorem placePattern_link (l m : Link) (fs : List PatternFrame) (s : State) :
    let c := s.links.get m
    let t := placePattern l fs s
    (t.links.get m).patternQ = (if m = l then c.patternQ ++ fs else c.patternQ)
    ∧ (SendsApply (t.links.get m).tx ↔ SendsApply c.tx) ∧ t.du = s.du := by
  simp only [placePattern, wake, updLink_updLink]
  by_cases h : m = l
  · subst h
    simp [updLink, wakeSlc_keeps, sendsApply_wakeSlc]
  · simp [updLink, h]

/-- What placing a delivery's blocks does to each link's queue and transmitter (R124). -/
theorem placeBlocks_link (l m : Link) (fs : List PatternFrame) (s : State) :
    let c := s.links.get m
    let t := placeBlocks l fs s
    (t.links.get m).patternQ = (if m = l then c.patternQ ++ fs else c.patternQ)
    ∧ (SendsApply (t.links.get m).tx ↔ SendsApply c.tx) ∧ t.du = s.du := by
  simp only
  unfold placeBlocks
  split
  · rename_i h
    rw [List.isEmpty_iff] at h
    subst h
    simp
  · exact placePattern_link l m fs s

/-- What an abandonment takes out of each link's queue (R130). -/
theorem dropBlocks_link (gen : Byte) (l m : Link) (s : State) :
    let c := s.links.get m
    let t := dropBlocks gen l s
    (t.links.get m).patternQ = (if m = l then c.patternQ.filter fun f => !isBlockOf gen f else c.patternQ)
    ∧ (t.links.get m).tx = c.tx ∧ t.du = s.du := by
  simp only [dropBlocks]
  by_cases h : m = l
  · subst h; simp [updLink]
  · simp [updLink, h]

/-- The blocks of one link are at most four, one for each slot, all of the generation (R124, R125). -/
theorem blocksFor_blocks (modules : Both (Row 4 ModuleEntry)) (g : GenRecord) (links : Both Slc) (l : Link) :
    BlocksOf g.number (blocksFor modules g (activeModules links) l) := by
  constructor
  · have few : ∀ p : Slot → Bool, (allSlots.filter p).length ≤ 4 := fun p => List.length_filter_le _ _
    have apart : ∀ (a b : Link) (ks : List Slot), a ≠ b →
        (ks.map fun k => (a, k)).filter (fun m => decide (m.1 = b)) = [] := by
      intro a b ks h
      simp [List.filter_eq_nil_iff, h]
    simp only [blocksFor, activeModules, List.length_map, List.flatMap_cons, List.flatMap_nil, List.append_nil,
      List.filter_append, List.length_append]
    cases l
    · rw [apart .right .left _ (by decide), List.length_nil, Nat.add_zero]
      exact (List.length_filter_le _ _).trans (by simpa using few _)
    · rw [apart .left .right _ (by decide), List.length_nil, Nat.zero_add]
      exact (List.length_filter_le _ _).trans (by simpa using few _)
  · intro f hf
    unfold blocksFor at hf
    rw [List.mem_map] at hf
    obtain ⟨m, _, rfl⟩ := hf
    exact ⟨_, _, rfl⟩

/-- A delivery that starts on an empty queue leaves the link agreeing, whatever is being sent but an APPLY (R124). -/
theorem startDelivery_agrees (g : GenRecord) {m : Link} {s : State} (empty : (s.links.get m).patternQ = [])
    {sends : Prop} (none_ : ¬sends) :
    let t := startDelivery g s
    QueueAgrees t.du.delivering (t.du.applyDone.get m) (t.links.get m).patternQ sends
    ∧ (SendsApply (t.links.get m).tx ↔ SendsApply (s.links.get m).tx) := by
  simp only
  unfold startDelivery
  simp only
  split
  · rw [setNoModules_eq]
    exact ⟨⟨empty, none_⟩, Iff.rfl⟩
  · generalize hu : setNoModules false _ = u
    have links : u.links = s.links := by rw [← hu, setNoModules_eq]
    have phase : u.du.delivering = some (g, .blocks) ∧ u.du.applyDone = { left := false, right := false } := by
      rw [← hu, setNoModules_eq]
      exact ⟨rfl, rfl⟩
    generalize hb : blocksFor s.mu.tables.modules g (activeModules s.links) = blocks
    have each : ∀ l, BlocksOf g.number (blocks l) := fun l => hb ▸ blocksFor_blocks _ _ _ l
    obtain ⟨q2, tx2, du2⟩ := placeBlocks_link .right m (blocks .right) (placeBlocks .left (blocks .left) u)
    obtain ⟨q1, tx1, du1⟩ := placeBlocks_link .left m (blocks .left) u
    refine ⟨?_, tx2.trans (tx1.trans (by rw [links]))⟩
    rw [du2, du1, phase.1, phase.2]
    refine ⟨by cases m <;> rfl, ?_, none_⟩
    rw [q2, q1, links, empty]
    cases m <;> simpa using each _

/-- A delivery in phase BLOCKS whose ack set has become empty puts its APPLY behind the blocks (R128). -/
theorem applyNow_agrees {g : GenRecord} {m : Link} {s : State} (h : LinkAgrees m s)
    (phase : s.du.delivering = some (g, .blocks)) : LinkAgrees m (applyNow g s) := by
  unfold LinkAgrees QueueAgrees at h
  rw [phase] at h
  obtain ⟨undone, blocks, none_⟩ := h
  unfold applyNow
  simp only
  generalize hu : ({ s with du := { s.du with delivering := some (g, .applying), applyTimer := none } } : State) = u
  obtain ⟨q2, tx2, du2⟩ := placePattern_link .right m [.apply g.number] (placePattern .left [.apply g.number] u)
  obtain ⟨q1, tx1, du1⟩ := placePattern_link .left m [.apply g.number] u
  unfold LinkAgrees
  rw [du2, du1, tx2, tx1, q2, q1, ← hu]
  refine .inl ⟨undone, none_, (s.links.get m).patternQ, blocks, ?_⟩
  cases m <;> simp

end Sys2Proof.Machine
end

