-- ==== Sys2Proof/Laws/Requests.lean ====
section
/-! SUPPORT. How a request is sorted, parsed and answered (chapters 9 and 10). -/

namespace Sys2Proof.Machine

/-- An enabled filter entry fits a code just where they agree on the mask (R156). -/
theorem entryFits_iff (code : BitVec 10) (e : FilterEntry) :
    (e.enabled && decide ((code ^^^ e.code) &&& e.mask = 0)) = true ↔ e.enabled = true ∧
        ∀ d : Fin 10, e.mask.getLsbD d.val = true → code.getLsbD d.val = e.code.getLsbD d.val := by
  simp only [Bool.and_eq_true, decide_eq_true_eq]
  refine and_congr_right fun _ => ?_
  constructor
  · intro h d hd
    have := congrArg (fun x : BitVec 10 => x.getLsbD d.val) h
    simp at this
    by_contra hne
    have h2 := this (by simpa using hne)
    have h3 : e.mask[d.val] = true := by simpa using hd
    rw [h3] at h2; cases h2
  · intro h
    apply BitVec.eq_of_getLsbD_eq
    intro i hi
    have := h ⟨i, hi⟩
    simp at this ⊢
    cases hm : e.mask.getLsbD i
    · simp
    · simp [this hm]

/-- The first entry that fits decides (R156). -/
theorem filterFor_first (t : Row 16 FilterEntry) (code : BitVec 10) (i : Fin 16)
   (hi : ((t.get i).enabled && decide ((code ^^^ (t.get i).code) &&& (t.get i).mask = 0)) = true)
   (hm : ∀ j, ((t.get j).enabled && decide ((code ^^^ (t.get j).code) &&& (t.get j).mask = 0)) = true →
       i ≤ j) : filterFor t code = some (t.get i).action := by
  unfold filterFor
  have : t.cells.find? (fun e => e.enabled && decide ((code ^^^ e.code) &&& e.mask = 0)) = some (t.get i) := by
    rw [List.find?_eq_some_iff_getElem]
    refine ⟨hi, i.val, by rw [t.size]; exact i.isLt, rfl, ?_⟩
    intro j hj
    have := hm ⟨j, by omega⟩
    simp only [Bool.not_eq_true']
    rw [← Bool.not_eq_true]
    intro hc
    have := this hc
    rw [Fin.le_def] at this
    simp at this; omega
  rw [this]; rfl

/-- No entry that fits, no action (R156). -/
theorem filterFor_none (t : Row 16 FilterEntry) (code : BitVec 10)
   (hm : ∀ j, ¬ ((t.get j).enabled && decide ((code ^^^ (t.get j).code) &&& (t.get j).mask = 0)) = true) :
       filterFor t code = none := by
  unfold filterFor
  rw [Option.map_eq_none_iff, List.find?_eq_none]
  intro e he
  obtain ⟨j, rfl⟩ := (Row.mem_cells t e).1 he
  exact hm j

/-- Replying, in the terms of the statements (R164, R165). -/
theorem reply_eq (f : UpFrame) (r : Carried) :
    reply (requestTag f) f.seq r = answered f r.status r.data r.restart r.state := by
  unfold reply answered countManagement
  cases hst : r.status <;> simp [isBadRequest, upStart]

/-- A request that asks for a command code is parsed as that command (section 11.3). -/
theorem Asks.parse {f : UpFrame} {code : Byte} {args : List Byte} (h : Asks f code args) :
    parseRequest f = requestOfCode code.toNat args := by
  obtain ⟨h1, tag, h2⟩ := h
  simp [parseRequest, h1, h2, u8]

/-- A request MU can take is carried out and answered by its own row (R165). -/
theorem takeCommand_eq {s : State} {f : UpFrame} {rest : List UpFrame} (h : Takes s f rest) (c : Command)
    (run : List Byte → State → Carried) (args : List Byte) (hp : parseRequest f = .command c args) :
    let r := run args (afterTaking rest s)
    takeCommand c run s = .next (answered f r.status r.data r.restart r.state) := by
  obtain ⟨h1, h2, h3, h4⟩ := h
  have hm : mayTake s = true := by simp [mayTake, replyCapacity, h3, h4]
  unfold takeCommand
  rw [running_awake h1]
  unfold takeRequest
  simp only [h2, hm, hp, forCommand, if_true, reply_eq]
  rfl

/-- A request that cannot be carried out for its form is answered (R164). -/
theorem malformed_eq {s : State} {f : UpFrame} {rest : List UpFrame} (h : Takes s f rest) (st : Status)
   (hp : parseRequest f = .bad st) :
       exec .malformedRequest s = .next (answered f st [] false (afterTaking rest s)) := by
  obtain ⟨h1, h2, h3, h4⟩ := h
  have hm : mayTake s = true := by simp [mayTake, replyCapacity, h3, h4]
  simp only [exec, execMalformedRequest]
  rw [running_awake h1]
  unfold takeRequest
  simp only [h2, hm, hp, carryMalformed, reply_eq]
  rfl

/-- The link of a link number. -/
theorem linkOf_linkNo (l : Link) (n : Nat) (h : n = linkNo l) : linkOf n = some l := by subst h; cases l <;> rfl

/-- The slot of an address. -/
theorem slotOf_val (k : Slot) (n : Nat) (h : n = k.val) : slotOf n = some k := by subst h; simp [slotOf]

/-- The table of an id (R170). -/
theorem tableOf_eq_iff (i : TableId) (n : Nat) : tableOf n = some i ↔ n = tableNo i := by
  constructor
  · intro h
    have : n < 14 := by
      unfold tableOf at h; have := (List.getElem?_eq_some_iff.1 h).1; simpa [allTables] using this
    interval_cases n <;> (simp [tableOf, allTables] at h; subst h; rfl)
  · rintro rfl; cases i <;> rfl

/-- The condition of a number (section 8.1). -/
theorem condOf_condNo (c : Cond) (n : Nat) (h : n = (condNo c).val) : condOf n = some c := by subst h; cases c <;> rfl

/-- No table entry is empty (section 11.5). -/
theorem entrySize_pos (i : TableId) : 0 < entrySize i := by cases i <;> decide

/-- A record after every BROKEN module has been sent back to JOINING (R110). -/
def rejoinedRec (m : ModuleRec) : ModuleRec :=
  if effState m = .broken then joiningRec m else m

/-- Sending one slot's module back to JOINING where it is BROKEN (R110). -/
theorem rejoinBroken_links (l : Link) (j : Slot) (s : State) (m : Link) :
    let t := (rejoinBroken l s j).links.get m
    let c := s.links.get m
    (∀ k, t.modules.get k = if m = l ∧ k = j then rejoinedRec (c.modules.get k) else c.modules.get k)
    ∧ (∀ k, t.poll.get k
        = if m = l ∧ k = j ∧ effState (c.modules.get k) = .broken then some .join else c.poll.get k)
    ∧ t.patternQ = c.patternQ ∧ t.passQ = c.passQ := by
  simp only
  unfold rejoinBroken
  by_cases hb : effState (moduleRec s l j) = .broken
  · rw [if_pos hb]
    obtain ⟨q1, q2, q3, q4⟩ := enterJoining_links l j s m
    refine ⟨?_, ?_, q3, q4⟩ <;> intro k <;> simp only [q1, q2] <;> by_cases hm : m = l
    · subst hm
      by_cases hk : k = j
      · subst hk
        have hb' : effState ((s.links.get m).modules.get k) = .broken := hb
        simp [rejoinedRec, hb']
      · simp [hk]
    · simp [hm]
    · subst hm
      by_cases hk : k = j
      · subst hk
        have hb' : effState ((s.links.get m).modules.get k) = .broken := hb
        simp [hb']
      · simp [hk]
    · simp [hm]
  · rw [if_neg hb]
    refine ⟨?_, ?_, rfl, rfl⟩ <;> intro k <;> split <;> rename_i h <;> try rfl
    · obtain ⟨rfl, rfl⟩ := h
      have hb' : ¬effState ((s.links.get m).modules.get k) = .broken := hb
      simp [rejoinedRec, hb']
    · obtain ⟨rfl, rfl, h⟩ := h
      exact absurd h hb

/-- Sending the BROKEN modules of a link back to JOINING, slot by slot (R110). -/
theorem foldl_rejoinBroken_links (l : Link) (ks : List Slot) (s : State) (hn : ks.Nodup) (m : Link) :
    let t := (ks.foldl (rejoinBroken l) s).links.get m
    let c := s.links.get m
    (∀ k, t.modules.get k = if m = l ∧ k ∈ ks then rejoinedRec (c.modules.get k) else c.modules.get k)
    ∧ (∀ k, t.poll.get k
        = if m = l ∧ k ∈ ks ∧ effState (c.modules.get k) = .broken then some .join else c.poll.get k)
    ∧ t.patternQ = c.patternQ ∧ t.passQ = c.passQ := by
  induction ks generalizing s with
  | nil => simp
  | cons j ks ih =>
    rw [List.nodup_cons] at hn
    obtain ⟨i1, i2, i3, i4⟩ := ih (rejoinBroken l s j) hn.2
    obtain ⟨e1, e2, e3, e4⟩ := rejoinBroken_links l j s m
    simp only [List.foldl_cons]
    refine ⟨?_, ?_, i3.trans e3, i4.trans e4⟩ <;> intro k
    · rw [i1, e1]
      by_cases hk : k = j
      · subst hk; simp [hn.1]
      · simp [hk]
    · rw [i2, e1, e2]
      by_cases hk : k = j
      · subst hk; simp [hn.1]
      · simp [hk]

end Sys2Proof.Machine
end

