-- ==== Sys2Proof/Laws/TableLaws.lean ====
section
/-! SUPPORT. What one field of a table entry passes, and the bytes READ_TABLE returns for an entry (R172, R174, section
11.5). -/

namespace Sys2Proof.Machine

/-! ## One field -/

/-- A one-byte field passes just where it lies in its range, and is that byte. -/
theorem field1_eq_some (lo hi : Nat) (bs : List Byte) (i v : Nat) :
    field1 lo hi bs i = some v ↔ (lo ≤ u8 bs i ∧ u8 bs i ≤ hi) ∧ v = u8 bs i := by
  simp [field1, ifNatWithin, natWithin, and_assoc]; tauto

/-- A two-byte field passes just where it lies in its range. -/
theorem field2_eq_some (lo hi : Nat) (bs : List Byte) (i v : Nat) :
    field2 lo hi bs i = some v ↔ (lo ≤ u16 bs i ∧ u16 bs i ≤ hi) ∧ v = u16 bs i := by
  simp [field2, ifNatWithin, natWithin, and_assoc]; tauto

/-- A signed one-byte field passes just where it lies in its range. -/
theorem sfield1_eq_some (lo hi : Int) (bs : List Byte) (i : Nat) (v : Int) :
    sfield1 lo hi bs i = some v ↔ (lo ≤ s8 bs i ∧ s8 bs i ≤ hi) ∧ v = s8 bs i := by
  simp [sfield1, ifWithin, within, and_assoc]; tauto

/-- A signed two-byte field passes just where it lies in its range. -/
theorem sfield2_eq_some (lo hi : Int) (bs : List Byte) (i : Nat) (v : Int) :
    sfield2 lo hi bs i = some v ↔ (lo ≤ s16 bs i ∧ s16 bs i ≤ hi) ∧ v = s16 bs i := by
  simp [sfield2, ifWithin, within, and_assoc]; tauto

/-- A yes/no field passes just where it is 0 or 1. -/
theorem boolOf_eq_some (n : Nat) (b : Bool) : boolOf n = some b ↔ n = if b then 1 else 0 := by
  unfold boolOf; split <;> cases b <;> simp_all

/-- A value kept under a check. -/
theorem keepIf_eq_some {α : Type} (ok : Bool) (x y : α) : keepIf ok x = some y ↔ ok = true ∧ x = y := by
  cases ok <;> simp [keepIf]

/-- The codes of a window's lamp (section 11.6). -/
theorem windowLampOf_isSome (n : Nat) : (windowLampOf n).isSome = true ↔ n ≤ 2 := by
  unfold windowLampOf; split <;> simp_all; omega

/-- The codes of a window's kind (section 11.6). -/
theorem windowKindOf_isSome (n : Nat) : (windowKindOf n).isSome = true ↔ n ≤ 1 := by
  unfold windowKindOf; split <;> simp_all; omega

/-- The codes of a report field (section 11.6). -/
theorem reportOf_isSome (n : Nat) : (reportOf n).isSome = true ↔ n ≤ 2 := by
  unfold reportOf; split <;> simp_all; omega

/-- The codes of an action (section 11.6). -/
theorem actionOf_isSome (n : Nat) : (actionOf n).isSome = true ↔ n ≤ 3 := by
  unfold actionOf; split <;> simp_all; omega

/-- The codes of a source (section 11.6). -/
theorem sourceOf_isSome (n : Nat) : (sourceOf n).isSome = true ↔ n ≤ 2 := by
  unfold sourceOf; split <;> simp_all; omega

/-- The codes of a filter action (section 11.6). -/
theorem filterActionOf_isSome (n : Nat) : (filterActionOf n).isSome = true ↔ n ≤ 5 := by
  unfold filterActionOf; split <;> simp_all; omega

/-- The codes of an edge rule (section 11.6). -/
theorem edgeOf_isSome (n : Nat) : (edgeOf n).isSome = true ↔ n ≤ 1 := by
  unfold edgeOf; split <;> simp_all; omega

/-- The codes of a park mode (section 11.6). -/
theorem parkOf_isSome (n : Nat) : (parkOf n).isSome = true ↔ n ≤ 1 := by
  unfold parkOf; split <;> simp_all; omega

/-- The codes of a member (section 11.6). -/
theorem memberOf_isSome (n : Nat) : (memberOf n).isSome = true ↔ n ≤ 2 := by
  unfold memberOf; split <;> simp_all; omega

/-- Two windows share no segment just where they do not overlap (R174). -/
theorem windowsApart_iff (a b : ModuleEntry) : WindowsApart a b ↔ windowsOverlap a b = false := by
  rw [← Bool.not_eq_true]
  simp only [windowsOverlap, WindowsApart, Bool.and_eq_true, decide_eq_true_eq]
  omega

/-! ## The bytes of an entry -/

/-- Bytes that fill their entry take no pad. -/
theorem pad_full (bs : List Byte) (n : Nat) (h : n ≤ bs.length) :
    bs ++ List.replicate (n - bs.length) 0 = bs := by
  rw [Nat.sub_eq_zero_of_le h]; simp

/-- A run of values of one width. -/
theorem flatMap_length {α : Type} (l : List α) (f : α → List Byte) (k : Nat) (h : ∀ x ∈ l, (f x).length = k) :
    (l.flatMap f).length = k * l.length := by
  induction l with
  | nil => simp
  | cons a l ih => simp [List.flatMap_cons, h a (by simp), ih (fun x hx => h x (by simp [hx]))]; ring

/-- Eight flags in one byte, the first most significant. -/
theorem zone_byte (b : Fin 8 → Bool) :
    (List.finRange 8).foldl (fun (x : Byte) k => (x <<< 1) ||| (if b k then 1 else 0)) 0
      = BitVec.ofNat 8 ((List.finRange 8).foldl (fun x k => 2 * x + if b k then 1 else 0) 0) := by
  have e : List.finRange 8 = [0, 1, 2, 3, 4, 5, 6, 7] := by decide
  rw [e]
  simp only [List.foldl_cons, List.foldl_nil]
  generalize b 0 = b0; generalize b 1 = b1; generalize b 2 = b2; generalize b 3 = b3
  generalize b 4 = b4; generalize b 5 = b5; generalize b 6 = b6; generalize b 7 = b7
  revert b0 b1 b2 b3 b4 b5 b6 b7; decide

/-- READ_TABLE returns the layout of section 11.5 (R172). -/
theorem entryBytes_eq_layout (id : TableId) (n : Nat) (t : Tables) : entryBytes id n t = entryLayout id n t := by
  have l1 : ∀ x, (byte1 x).length = 1 := fun _ => rfl
  have l2 : ∀ x, (bytes2 x).length = 2 := fun _ => rfl
  have l3 : ∀ x, (sbyte1 x).length = 1 := fun _ => rfl
  have l4 : ∀ x, (sbytes2 x).length = 2 := fun _ => rfl
  have l5 : ∀ x, (flag1 x).length = 1 := fun _ => rfl
  cases id
  case curve =>
    simp only [entryBytes, entryFields, encodeCurve, entryLayout]
    by_cases h : n = 0
    · simp only [h, if_true]; simp [l2, entrySize]
    · simp only [h, if_false]; apply pad_full
      simp [flatMap_length _ _ 2 (fun x _ => l4 x), l2, entrySize, Row.size]
  case classPolicy => rfl
  case margin =>
    simp only [entryBytes, entryFields, encodeMargin, entryLayout]
    by_cases h : n = 4
    · simp only [h, if_true]; rfl
    · simp only [h, if_false]; rfl
  case window =>
    have e1 : ∀ w : WindowLamp, [WindowLamp.left, .right, .both].idxOf w = windowLampNo w := by
      intro w; cases w <;> rfl
    have e2 : ∀ w : WindowKind, [WindowKind.cap, .floor].idxOf w = windowKindNo w := by
      intro w; cases w <;> rfl
    simp only [entryBytes, entryFields, encodeWindow, entryLayout, e1, e2]; rfl
  case derate => rfl
  case condition =>
    have e1 : ∀ w : ReportAt, [ReportAt.never, .alert, .fault].idxOf w = reportNo w := by
      intro w; cases w <;> rfl
    have e2 : ∀ w : Machine.Action, [Action.none, .dim, .lowOnly, .fallback].idxOf w = actionNo w := by
      intro w; cases w <;> rfl
    simp only [entryBytes, entryFields, encodeCondition, entryLayout, e1, e2]; rfl
  case vehicle =>
    have e1 : ∀ w : SourceChoice, [SourceChoice.frame, .pin, .frameElsePin].idxOf w = sourceNo w := by
      intro w; cases w <;> rfl
    simp only [entryBytes, entryFields, encodeVehicle, entryLayout, e1]; rfl
  case build => rfl
  case filter =>
    have e1 : ∀ w : FilterAction,
        [FilterAction.object, .vehicle, .passLeft, .passRight, .passBoth, .discard].idxOf w = filterActionNo w := by
      intro w; cases w <;> rfl
    simp only [entryBytes, entryFields, entryLayout, e1]; rfl
  case segMap =>
    have hs : sideOf n 1 = if n = 0 then .left else .right := by simp [sideOf]
    simp only [entryBytes, entryFields, encodeSegMap, entryLayout, zoneBytes, hs]
    rw [pad_full]
    · congr 1
      rw [List.map_eq_flatMap]
      congr 1; funext b
      rw [zone_byte]; rfl
    · simp [l1, l3, l4, entrySize]
  case modules => rfl
  case profile =>
    have e1 : ∀ w : EdgeRule, [EdgeRule.hold, .dark].idxOf w = edgeNo w := by
      intro w; cases w <;> rfl
    simp only [entryBytes, entryFields, encodeProfile, entryLayout, e1, sideOf]
    by_cases h : n % 9 = 8
    · simp only [h, if_true]; rfl
    · simp only [h, if_false]; apply pad_full
      rw [flatMap_length _ _ 1 (fun x _ => l1 x)]; simp [entrySize, Row.size]
  case mode =>
    simp only [entryBytes, entryFields, encodeMode, entryLayout]
    by_cases h : n = 0
    · simp only [h, if_true]; rfl
    · simp only [h, if_false]
      have : getModeRow t.mode n
          = [t.mode.low, t.mode.town, t.mode.country, t.mode.motorway, t.mode.adverse].getD (n - 1) t.mode.full := by
        unfold getModeRow
        rcases n with _ | _ | _ | _ | _ | _ | n
        · exact absurd rfl h
        all_goals simp
      rw [this]; rfl
  case link =>
    have e1 : ∀ w : ParkMode, [ParkMode.lastMember, .defaultMember].idxOf w = parkNo w := by
      intro w; cases w <;> rfl
    have e2 : ∀ w : Member, [Member.pattern, .pass, .pollGroup].idxOf w = memberNo w := by
      intro w; cases w <;> rfl
    simp only [entryBytes, entryFields, encodeLink, entryLayout, e1, e2]; rfl

end Sys2Proof.Machine
end

