-- ==== Sys2Proof/Laws/Tracks.lean ====
section
/-! SUPPORT. What the passes of an association and the settling do, entry by entry (chapter 3). -/

namespace Sys2Proof.Machine

/-- A fold that does not look at its list repeats one change. -/
theorem foldl_const {α : Type} (l : List α) (f : Assoc →
    Assoc) (a : Assoc) : l.foldl (fun a _ => f a) a = f^[l.length] a := by
  induction l generalizing a with
  | nil => rfl
  | cons x xs ih => simp [ih]

/-- A counter of an association that goes up several times. -/
theorem countAssoc_iterate (n : Nat) (i : Fin 14) (a : Assoc) :
    (countAssoc i)^[n] a = { a with stats := a.stats.modify i bump^[n] } := by
  induction n generalizing a with
  | zero =>
    have : a.stats.modify i (fun x => x) = a.stats := by
      apply Row.ext_get; intro j; by_cases h : j = i <;> simp [h]
    show a = { a with stats := a.stats.modify i id }
    have : a.stats.modify i id = a.stats := this
    rw [this]
  | succ n ih =>
    rw [Function.iterate_succ_apply, ih]
    simp only [countAssoc, bumpAt]
    congr 1
    apply Row.ext_get; intro j
    by_cases h : j = i
    · subst h; simp
    · simp [h]

/-- Step 1 keeps the reports of enough confidence and counts the others (R40). -/
theorem discardWeak_eq (r : AssocRules) (reports : List Report) (a : Assoc) :
    let strong := reports.filter fun x => decide ((policyOf r.policy x.cls).minConfidence ≤ x.confidence)
    discardWeak r reports a = (strong,
      { a with stats := a.stats.modify Stat.trkLowConfidence bump^[reports.length - strong.length] }) := by
  generalize hw : (fun x : Report => decide (x.confidence < (policyOf r.policy x.cls).minConfidence)) = weak
  have hp : (fun x : Report => decide ((policyOf r.policy x.cls).minConfidence ≤ x.confidence))
      = fun x => !weak x := by
    subst hw
    funext x
    rw [← decide_not]
    simp
  have hl : (reports.filter weak).length = reports.length - (reports.filter fun x => !weak x).length := by
    have h := List.length_eq_countP_add_countP weak (l := reports)
    have e : reports.countP (fun x => !weak x) = reports.countP fun x => decide ¬weak x = true := by
      congr 1
      funext x
      cases weak x <;> rfl
    rw [← List.countP_eq_length_filter, ← List.countP_eq_length_filter, e]
    omega
  simp only [discardWeak, foldl_const, countAssoc_iterate, hp, hw, hl]
  subst hw
  rfl

/-- Taking a scene, with its association given (R39, R47, R53, R65). -/
theorem takeScene_eq (scene : Scene) (s : State) (a : Assoc) (ha :
    associate (assocRules s scene.number) scene s.tu = a) :
    takeScene scene s = trigger { s with
      tu := ⟨a.tracks, bumpAt Stat.trkScenes a.stats⟩
      sa := { s.sa with handover := false }
      pb := { s.pb with latch := some scene.number }
      mail := { s.mail with events := if a.dropped then s.mail.events ++ [.trackTableFull] else s.mail.events } } :=
          by
  simp only [takeScene, ha]
  split <;> simp_all [sendEvent]

/-- The one entry of a report id and class is the one found (R41). -/
theorem findById_some (tracks : Row 24 (Option Track)) (x : Report) (n : TrackNo) (t : Track)
  (h : tracks.get n = some t) (h1 : t.id = x.id) (h2 : t.cls = x.cls)
  (hu : ∀ m u, tracks.get m = some u → u.id = x.id → u.cls = x.cls → m = n) : findById tracks x = some n := by
  unfold findById
  cases hf : allTracks.find? _ with
  | none =>
    rw [List.find?_eq_none] at hf
    have := hf n (List.mem_finRange n)
    simp [h, h1, h2] at this
  | some m =>
    have hm := List.find?_some hf
    cases hg : tracks.get m with
    | none => simp [hg] at hm
    | some u =>
      simp [hg] at hm
      rw [hu m u hg hm.1 hm.2]

/-- When an entry qualifies in pass 2, and with what width (R44). -/
theorem qualifies_iff (r : AssocRules) (x : Report) (a : Assoc) (n : TrackNo) (c : TrackNo × Track × Int) :
   qualifies r x a n = some c ↔ c.1 = n ∧ a.tracks.get n = some c.2.1 ∧ c.2.1.cls = x.cls ∧ a.matched.get n = false ∧
       c.2.2 = overlapWidth (policyOf r.policy x.cls).gate x c.2.1 ∧ 0 < c.2.2 := by
  unfold qualifies
  cases hn : a.tracks.get n with
  | none => simp
  | some t =>
    obtain ⟨m, u, w⟩ := c
    simp only [Option.some.injEq]
    split <;> rename_i h
    · simp at h
      simp
      constructor
      · rintro ⟨rfl, rfl, rfl⟩; exact ⟨rfl, rfl, h.1.1, h.1.2, rfl, h.2⟩
      · rintro ⟨rfl, rfl, _, _, rfl, _⟩; exact ⟨rfl, rfl, rfl⟩
    · simp at h
      simp
      rintro rfl rfl h1 h2 rfl
      exact h h1 h2

/-- The better of a best so far and a candidate: the candidate only if its key is strictly larger. -/
def pickFirst {α : Type} (key : α → Int) (best : Option α) (c : α) : Option α :=
  match best with | none => some c | some b => if key b < key c then some c else some b

/-- A fold that keeps the better ends at the first largest. -/
theorem foldl_pickFirst {α : Type} (key : α → Int) (l : List α) (b : Option α) :
   let f := l.foldl (pickFirst key) b
   (f = none ↔ b = none ∧ l = []) ∧ ∀ m, f = some m → (b = some m ∧ ∀ y ∈ l, key y ≤ key m) ∨
     (∃ p q, l = p ++ m :: q ∧ (∀ y ∈ p, key y < key m) ∧ (∀ y ∈ q, key y ≤ key m) ∧
         ∀ z, b = some z → key z < key m) := by
  induction l generalizing b with
  | nil => simp
  | cons c cs ih =>
    simp only [List.foldl_cons]
    cases b with
    | none =>
      simp only [pickFirst]
      obtain ⟨h1, h2⟩ := ih (some c)
      refine ⟨by simp [h1], ?_⟩
      intro m hm
      rcases h2 m hm with ⟨h, h'⟩ | ⟨p, q, h, h3, h4, h5⟩
      · simp at h; subst h
        right; exact ⟨[], cs, rfl, by simp, h', by simp⟩
      · right; refine ⟨c :: p, q, by simp [h], ?_, h4, by simp⟩
        intro y hy; simp at hy
        rcases hy with rfl | hy
        · exact h5 _ rfl
        · exact h3 y hy
    | some z =>
      simp only [pickFirst]
      by_cases hz : key z < key c
      · simp only [hz, if_true]
        obtain ⟨h1, h2⟩ := ih (some c)
        refine ⟨by simp [h1], ?_⟩
        intro m hm
        rcases h2 m hm with ⟨h, h'⟩ | ⟨p, q, h, h3, h4, h5⟩
        · simp at h; subst h
          right; exact ⟨[], cs, rfl, by simp, h', by simpa using hz⟩
        · right; refine ⟨c :: p, q, by simp [h], ?_, h4, ?_⟩
          · intro y hy; simp at hy
            rcases hy with rfl | hy
            · exact h5 _ rfl
            · exact h3 y hy
          · intro w hw; simp at hw; subst hw
            exact lt_trans hz (h5 _ rfl)
      · simp only [hz, if_false]
        obtain ⟨h1, h2⟩ := ih (some z)
        refine ⟨by simp [h1], ?_⟩
        intro m hm
        rcases h2 m hm with ⟨h, h'⟩ | ⟨p, q, h, h3, h4, h5⟩
        · left; refine ⟨h, ?_⟩
          intro y hy; simp at hy h; subst h
          rcases hy with rfl | hy
          · omega
          · exact h' y hy
        · right; refine ⟨c :: p, q, by simp [h], ?_, h4, h5⟩
          intro y hy; simp at hy
          have := h5 z rfl
          rcases hy with rfl | hy
          · omega
          · exact h3 y hy

/-- The entries are listed in rising order. -/
theorem finRange_sorted : (List.finRange 24).Pairwise (· < ·) := by decide

/-- Settling one entry changes that entry only, as `settledTrack` says (R48 to R52). -/
theorem settleEntry_at (r : AssocRules) (tr : Bool) (a : Assoc) (n : TrackNo) :
   (settleEntry r tr a n).tracks.get n = (a.tracks.get n).bind (settledTrack r tr (a.matched.get n)) ∧
   ∀ m, m ≠ n → (settleEntry r tr a n).tracks.get m = a.tracks.get m ∧
       (settleEntry r tr a n).matched.get m = a.matched.get m := by
  unfold settleEntry
  cases ht : a.tracks.get n with
  | none => simp [ht]
  | some t =>
    cases hm : a.matched.get n with
    | true =>
      cases hs : t.state with
      | tentative =>
        by_cases h : (policyOf r.policy t.cls).confirmScenes ≤ t.hits <;>
        simp +contextual [settleMatched, settledTrack, hs, h, countAssoc, ht]
      | confirmed => simp [settleMatched, settledTrack, hs, ht]
      | coasting => simp [settleMatched, settledTrack, hs, ht]
    | false =>
      cases hs : t.state with
      | tentative => cases tr <;> simp +contextual [settleUnmatched, settledTrack, hs, countAssoc, freeEntry, ht]
      | confirmed =>
        cases tr
        · by_cases h : (policyOf r.policy t.cls).holdTime = 0 <;> simp +contextual [settleUnmatched, settledTrack, hs,
              coastTrack, h, countAssoc, freeEntry, startTimer, msToUs, Nat.mul_comm]
        · simp [settleUnmatched, settledTrack, hs, ht]
      | coasting => simp +contextual [settleUnmatched, settledTrack, hs, growTrack]

/-- Settling one entry counts a confirmation, a TENTATIVE track lost or a hold time of 0, and changes neither which entries
count as matched nor whether a report was dropped (R48 to R52). -/
theorem settleEntry_counts (r : AssocRules) (tr : Bool) (a : Assoc) (n : TrackNo) :
    let confirmed (x : Track) : Bool := a.matched.get n && decide (x.state = .tentative)
      && decide ((policyOf r.policy x.cls).confirmScenes ≤ x.hits)
    let lost (x : Track) : Bool := !tr && !a.matched.get n && decide (x.state = .tentative)
    let out (x : Track) : Bool := !tr && !a.matched.get n && decide (x.state = .confirmed)
      && decide ((policyOf r.policy x.cls).holdTime = 0)
    let t := settleEntry r tr a n
    (∀ j, t.stats.get j =
      if j = Stat.trkConfirms then if (a.tracks.get n).any confirmed then bump (a.stats.get j) else a.stats.get j
      else if j = Stat.trkTentativeLost then if (a.tracks.get n).any lost then bump (a.stats.get j) else a.stats.get j
      else if j = Stat.trkHoldExpiries then if (a.tracks.get n).any out then bump (a.stats.get j) else a.stats.get j
      else a.stats.get j)
    ∧ t.matched = a.matched ∧ t.dropped = a.dropped := by
  simp only
  unfold settleEntry
  cases ht : a.tracks.get n with
  | none => simp
  | some t =>
    cases hm : a.matched.get n with
    | true =>
      cases hs : t.state with
      | tentative =>
        by_cases h : (policyOf r.policy t.cls).confirmScenes ≤ t.hits <;>
          simp [settleMatched, hs, h, countAssoc, bumpAt_get]
      | confirmed => simp [settleMatched, hs]
      | coasting => simp [settleMatched, hs]
    | false =>
      have unmatched := Row.set_of_get a.matched n false hm
      have lost_ne : Stat.trkTentativeLost ≠ Stat.trkConfirms := by decide
      have out_ne : Stat.trkHoldExpiries ≠ Stat.trkConfirms ∧ Stat.trkHoldExpiries ≠ Stat.trkTentativeLost := by decide
      cases hs : t.state with
      | tentative =>
        cases tr
        · simp [settleUnmatched, hs, countAssoc, freeEntry, unmatched, bumpAt_get]
          intro e; exact absurd e.symm lost_ne
        · simp [settleUnmatched, hs]
      | confirmed =>
        cases tr
        · by_cases h : (policyOf r.policy t.cls).holdTime = 0
          · simp [settleUnmatched, hs, coastTrack, h, countAssoc, freeEntry, unmatched, bumpAt_get]
            intro j
            by_cases hj : j = Stat.trkHoldExpiries
            · subst hj; simp [out_ne]
            · simp [hj]
          · simp [settleUnmatched, hs, coastTrack, h]
        · simp [settleUnmatched, hs]
      | coasting => simp [settleUnmatched, hs, growTrack]

/-- Aging one entry changes that entry only, as `agedTrack` says, and counts it (R56). -/
theorem ageEntry_at (r : AssocRules) (s : State) (hp : r.policy = s.mu.tables.classPolicy) (hn : r.now = s.now) (a :
    Assoc) (n : TrackNo) :
   (ageEntry r a n).tracks.get n = (a.tracks.get n).bind (agedTrack s) ∧
   (∀ m, m ≠ n → (ageEntry r a n).tracks.get m = a.tracks.get m) ∧
   (∀ j, (ageEntry r a n).stats.get j =
      if j = Stat.trkTentativeLost then (if (a.tracks.get n).any fun t => decide (t.state =
          .tentative) then bump (a.stats.get j) else a.stats.get j)
      else if j = Stat.trkHoldExpiries then (if (a.tracks.get n).any fun t => decide (t.state =
          .confirmed) && decide ((policyOf s.mu.tables.classPolicy t.cls).holdTime =
              0) then bump (a.stats.get j) else a.stats.get j)
      else a.stats.get j) := by
  unfold ageEntry
  cases ht : a.tracks.get n with
  | none => simp [ht]
  | some t =>
    cases hs : t.state with
    | coasting => simp [ht, agedTrack, hs]
    | tentative =>
      simp +contextual [agedTrack, hs, countAssoc, freeEntry, bumpAt_get]
      intro j; split <;> simp_all
    | confirmed =>
      by_cases h : (policyOf s.mu.tables.classPolicy t.cls).holdTime = 0
      · simp +contextual [agedTrack, hs, countAssoc, freeEntry, coastTrack, hp, h, bumpAt_get]
        intro j; exact absurd j (by decide)
      · simp +contextual [agedTrack, hs, coastTrack, hp, h, hn, ← startTimer_eq s]
        intro j; split <;> simp_all

/-- A count that goes up once more, or does not. -/
theorem bump_iterate_if (n : Nat) (b : Bool) (x : Nat) :
    bump^[n] (if b then bump x else x) = bump^[n + (if b then 1 else 0)] x := by
  cases b <;> simp

end Sys2Proof.Machine
end

