-- ==== Sys2Proof/Laws/Wire.lean ====
section
/-! SUPPORT. How an envelope and a link frame are read back (sections 9.1, 6.3 and 11.1). -/

namespace Sys2Proof.Machine

/-- The head of an envelope is read back as what it was written from. -/
theorem envelopeHead_reads (code : BitVec 10) (seq : BitVec 4) (last : Bool) (n : Nat) (rest : List Byte) :
   envelopeCode (envelopeHead code seq last n ++ rest) = code ∧
       envelopeSeq (envelopeHead code seq last n ++ rest) = seq ∧
           envelopeLast (envelopeHead code seq last n ++ rest) = last := by
  have h : ∀ (code : BitVec 10) (seq : BitVec 4) (last :
      Bool), BitVec.ofNat 10 ((BitVec.ofNat 8 (code.toNat / 4)).toNat * 4 + (BitVec.ofNat 8
          (code.toNat % 4 * 64 + seq.toNat * 4 + if last then 2 else 0)).toNat / 64) = code ∧
              (BitVec.ofNat 8 (code.toNat % 4 * 64 + seq.toNat * 4 + if last then 2 else 0)).extractLsb' 2 4 = seq ∧
                  (BitVec.ofNat 8 (code.toNat % 4 * 64 + seq.toNat * 4 + if last then 2 else 0)).getLsbD 1 =
                      last := by
    intro code seq last
    have h1 := code.isLt; have h2 := seq.isLt
    refine ⟨?_, ?_, ?_⟩
    · apply BitVec.eq_of_toNat_eq; simp; cases last <;> simp <;> omega
    · apply BitVec.eq_of_toNat_eq; simp [Nat.shiftRight_eq_div_pow]; cases last <;> simp <;> omega
    · simp [BitVec.getLsbD, Nat.testBit, Nat.shiftRight_eq_div_pow]; cases last <;> simp <;> omega
  have := h code seq last
  simpa [envelopeCode, envelopeSeq, envelopeLast, envelopeHead, u8] using this

/-- A check value is two bytes. -/
theorem checkBytes_length (bs : List Byte) : (checkBytes bs).length = 2 := rfl

/-- A link frame with a right check value and a payload its kind admits is taken as good (R104). -/
theorem linkArrival_good (kind : Nat) (hk : kind < 256) (k : Slot) (seq : BitVec 4) (last : Bool) (n : Nat)
    (p : List Byte) (hp : p.length = 2 * n) (hn : n ≤ 32) (f : ModuleFrame)
    (hf : parseModuleFrame kind k p = some f) :
    linkArrival (withCheck (envelopeHead (BitVec.ofNat 10 (4 * kind + k.val)) seq last n ++ p)) = .good f := by
  have hslot := k.isLt
  generalize hh : envelopeHead (BitVec.ofNat 10 (4 * kind + k.val)) seq last n = head
  have hlen : head.length = 3 := by rw [← hh]; rfl
  have hbody : (head ++ p).length = 3 + 2 * n := by simp [hlen, hp]
  generalize hc : checkBytes (head ++ p) = check
  have hcheck : check.length = 2 := by rw [← hc, checkBytes_length]
  have hw : withCheck (head ++ p) = head ++ p ++ check := by rw [← hc]; rfl
  rw [hw]
  have hwords : u8 (head ++ p ++ check) 2 = n := by
    rw [← hh]
    simp [u8, envelopeHead]
    omega
  have htake : (head ++ p ++ check).take (3 + 2 * n) = head ++ p := by rw [← hbody, List.take_left]
  have hdrop : ((head ++ p ++ check).drop (3 + 2 * n)).take 2 = check := by
    rw [← hbody, List.drop_left]
    exact List.take_of_length_le (by omega)
  have hpay : ((head ++ p ++ check).drop 3).take (2 * n) = p := by
    rw [List.append_assoc, ← hlen, List.drop_left, ← hp, List.take_left]
  have hcode : (envelopeCode (head ++ p ++ check)).toNat = 4 * kind + k.val := by
    have := (envelopeHead_reads (BitVec.ofNat 10 (4 * kind + k.val)) seq last n (p ++ check)).1
    rw [hh, ← List.append_assoc] at this
    rw [this]
    simp
    omega
  have hlong : (head ++ p ++ check).length = 3 + 2 * n + 2 := by rw [List.length_append, hbody, hcheck]
  have hkind : (4 * kind + k.val) / 4 = kind := by omega
  have hk' : (Fin.ofNat 4 (4 * kind + k.val) : Slot) = k := by
    apply Fin.ext
    simp
  simp only [linkArrival, hwords, htake, hdrop, hpay, hcode, hkind, hk', hlong, hc, hf]
  simp
  exact ⟨by omega, hn⟩

/-! ## The check value, digit by digit (section 11.1) -/

/-- One step of the division: the dividend's next digit decides whether the generator is taken off. -/
def divideDigit (c : BitVec 16) (bit : Bool) : BitVec 16 :=
  if c.msb = bit then c <<< 1 else (c <<< 1) ^^^ 0x1021#16

/-- The digits of a byte, most significant first. -/
def byteDigits (b : Byte) : List Bool :=
  (List.range 8).map b.getMsbD

/-- A step of the register is linear. -/
theorem crcBit_xor (x y : BitVec 16) : crcBit (x ^^^ y) = crcBit x ^^^ crcBit y := by
  unfold crcBit
  rw [BitVec.msb_xor]
  cases x.msb <;> cases y.msb <;> simp [BitVec.shiftLeft_xor_distrib]
  · ac_rfl
  · ac_rfl
  · generalize x <<< 1 = a
    generalize y <<< 1 = b
    have : a ^^^ 0x1021#16 ^^^ (b ^^^ 0x1021#16) = a ^^^ b ^^^ (0x1021#16 ^^^ 0x1021#16) := by ac_rfl
    rw [this]; simp

/-- A step of the division is a step of the register, and the generator where the digit is set. -/
theorem divideDigit_eq (c : BitVec 16) (bit : Bool) :
    divideDigit c bit = crcBit c ^^^ (if bit then 0x1021#16 else 0) := by
  unfold divideDigit crcBit
  cases c.msb <;> cases bit <;> simp

/-- Dividing from a sum of two registers is the sum of the plain steps of one and the division from the other. -/
theorem foldl_divideDigit_xor (bits : List Bool) (c d : BitVec 16) :
    bits.foldl divideDigit (c ^^^ d) = bits.foldl (fun x _ => crcBit x) c ^^^ bits.foldl divideDigit d := by
  induction bits generalizing c d with
  | nil => rfl
  | cons b bits ih =>
    simp only [List.foldl_cons]
    rw [← ih]
    congr 1
    rw [divideDigit_eq, divideDigit_eq, crcBit_xor]
    ac_rfl

/-- From the register 0, eight steps of the division are those of `crcByte`. -/
theorem crcByte_zero : ∀ b : Byte, (byteDigits b).foldl divideDigit 0#16 = crcByte 0#16 b := by decide +kernel

/-- One byte of the check value is the division by its eight digits, most significant first. -/
theorem crcByte_eq_divide (c : BitVec 16) (b : Byte) : crcByte c b = (byteDigits b).foldl divideDigit c := by
  have h := foldl_divideDigit_xor (byteDigits b) c 0#16
  rw [BitVec.xor_zero, crcByte_zero] at h
  rw [h]
  simp only [crcByte, crcBit_xor, BitVec.zero_xor]
  rfl

/-- The check value is the division by all the digits of the bytes (section 11.1). -/
theorem checkValue_eq_divide (bs : List Byte) :
    checkValue bs = (bs.flatMap byteDigits).foldl divideDigit 0xFFFF#16 := by
  unfold checkValue
  generalize 0xFFFF#16 = c
  induction bs generalizing c with
  | nil => rfl
  | cons b bs ih => rw [List.foldl_cons, ih, List.flatMap_cons, List.foldl_append, crcByte_eq_divide]

/-- A list without repeats has none. -/
theorem hasRepeat_false (l : List Nat) (h : l.Nodup) : hasRepeat l = false := by
  induction l with
  | nil => rfl
  | cons x xs ih => rw [List.nodup_cons] at h; simp [hasRepeat, ih h.2, h.1]

end Sys2Proof.Machine
end

