-- ==== Sys2Proof/WellFormed.lean ====
section
/-! DEFINITION. Which commands are well formed: a command that names a condition names one of the kind its row is about
(section 8.1), a raw report names a link just where the condition is raised per link (R135), and a reception brings at
least one byte. -/

namespace Sys2Proof

open Sys2Proof.Machine

/-- The one check of a command's operands. -/
def wellFormed : Instr → Bool
  | .levelRawReport c l => decide (condKind c = .level) && (condPerLink c == l.isSome)
  | .conditionEvent c | .eventRecoveryTimerExpiry c => decide (condKind c = .event)
  | .persistenceTimerExpiry c | .levelRecoveryTimerExpiry c => decide (condKind c = .level)
  | .linkFrameReceive _ bytes => !bytes.isEmpty
  | .upstreamFrameReceive _ bytes => !bytes.isEmpty
  | .powerOn .. | .resetPin .. | .vehicleFrameTake | .stalenessTimerExpiry _ | .spdEdge | .speedTimeoutExpiry
  | .steeringStep _ | .phaseError | .vehicleParametersInForce | .objectFrameTake | .sceneTimerExpiry
  | .externalSceneTear _ | .sceneTake | .holdTimerExpiry _ | .sceneTimeoutAging | .classPolicyInForce
  | .buildRefreshTimerExpiry | .buildCompletion | .generationTake | .blockAckTake _ | .brokenNoticeTake _
  | .applyTimerExpiry | .replyTimerExpiry .. | .pollTimerExpiry _ | .wakeSequenceEnd _ | .linkTxComplete _
  | .conditionTableInForce | .detachedRecovery | .upstreamTxComplete | .malformedRequest | .readInfo | .readState
  | .readTracks | .readModules | .readConditions | .readStatistics | .readTable | .loadTable | .commitTables
  | .discardStaged | .enterConfig | .exitConfig | .holdLow | .releaseHold | .setIsolation | .setSteerZero
  | .clearTracks | .clearNotice | .recoverCondition | .recoverModule | .restart | .resetPinAsserted => true

end Sys2Proof
end

