-- ==== Sys2Proof/Tests/Slice0.lean ====
section
/-! SUPPORT. The model's own tests: an ill-formed command for each check, the spec's worked examples, single steps, and
for each statement with hypotheses a concrete state that meets them, clause by clause at the ends of its ranges. -/

namespace Sys2Proof.Tests

open Sys2Proof Sys2Proof.Machine

set_option Elab.async false

/-! ## Ill-formed commands -/

theorem test_refuses_raw_report_of_event_condition : wellFormed (.levelRawReport .sceneTorn none) = false := by decide

theorem test_refuses_raw_report_without_its_link : wellFormed (.levelRawReport .overtemp none) = false := by decide

theorem test_refuses_raw_report_with_a_needless_link :
    wellFormed (.levelRawReport .speedStale (some .left)) = false := by decide

theorem test_refuses_event_of_level_condition : wellFormed (.conditionEvent .overtemp) = false := by decide

theorem test_refuses_event_recovery_of_level_condition :
    wellFormed (.eventRecoveryTimerExpiry .noModules) = false := by decide

theorem test_refuses_persistence_of_event_condition :
    wellFormed (.persistenceTimerExpiry .tableRejected) = false := by decide

theorem test_refuses_level_recovery_of_event_condition :
    wellFormed (.levelRecoveryTimerExpiry .sceneTorn) = false := by decide

theorem test_refuses_empty_link_frame : wellFormed (.linkFrameReceive .left []) = false := by decide

theorem test_refuses_empty_upstream_frame : wellFormed (.upstreamFrameReceive 0 []) = false := by decide

theorem test_accepts_raw_report_of_a_link : wellFormed (.levelRawReport .overtemp (some .right)) = true := by decide

/-! ## Small states -/

/-- The state a command leaves. -/
def after (c : Instr) (s : State) : State :=
  match exec c s with
  | .next t => t
  | .fault _ | .refused _ => s

/-- Right after reset, with this VSB. -/
def withVehicle (f : Vsb → Vsb) : State :=
  { State.reset with vsb := f State.reset.vsb }

/-- Right after reset, with this LEFT link. -/
def withLeft (f : Slc → Slc) : State :=
  { State.reset with links := { State.reset.links with left := f State.reset.links.left } }

/-- Right after reset, with this port. -/
def withPort (f : Up → Up) : State :=
  { State.reset with up := f State.reset.up }

/-- Right after reset, with these messages under way. -/
def withMail (f : Mail → Mail) : State :=
  { State.reset with mail := f State.reset.mail }

/-- Right after reset, with these values in MU. -/
def withMu (f : Mu → Mu) : State :=
  { State.reset with mu := f State.reset.mu }

/-- Right after reset, with one condition's record. -/
def withCond (c : Cond) (f : CondRec → CondRec) : State :=
  { State.reset with cm := { State.reset.cm with recs := State.reset.cm.recs.modify (condNo c) f } }

/-- An upstream frame of this code and payload. -/
def frameOf (code : BitVec 10) (payload : List Byte) : UpFrame := ⟨code, 5, true, payload⟩

/-- Right after reset, with a request of this code, tag 7 and these arguments waiting. -/
def asking (code : Byte) (args : List Byte) : State :=
  withPort fun u => { u with mgmtQ := [frameOf 1000 (code :: 7 :: args)] }

/-- Right after reset and the end of the first build, with a request waiting in CONFIG. -/
def askingInConfig (code : Byte) (args : List Byte) : State :=
  { asking code args with mu := { State.reset.mu with config := .config } }

/-! ## The spec's worked examples -/

/-- Section 1.9, second row to third: a counter of 540 and a frame angle of 300 give the reference 180 and the angle
300. -/
theorem test_auto_reference_example :
    (autoReference builtInVehicle (some 300)
      { State.reset.vsb with pin := ⟨540, 0, false, 3, 0⟩ }).pin = ⟨540, 180, true, 0, 300⟩ := by decide

/-- Section 1.9, fourth and seventh rows. -/
theorem test_pin_angle_example : pinAngleOf 570 180 12 = 325 ∧ pinAngleOf 330 180 12 = 125 := by decide

/-- Section 4.11: six builds of the swivel, and the columns they shift by. -/
theorem test_swivel_example :
    (moveSwivel 8 0 (-41), moveSwivel 8 (-32) (-41), moveSwivel 8 (-40) (-41)) = (-8, -40, -41)
      ∧ roundDiv (-8) 24 = 0 ∧ roundDiv (-16) 24 = -1 ∧ roundDiv (-32) 24 = -1 ∧ roundDiv (-41) 24 = -2 := by decide

/-- R74: a steering angle of −450 at a speed of 850 has the target swivel −41. -/
theorem test_target_swivel_example :
    ∀ b ∈ State.reset.pb.build, targetSwivel { b with speed := ⟨some 850, true⟩, steer := ⟨some (-450), true⟩ }
      .motorway = -41 := by decide +kernel

/-- R74 rounds the whole target, halves away from zero: at an angle of −880 it is −73.5, which gives −74. -/
theorem test_target_swivel_rounds_whole :
    ∀ b ∈ State.reset.pb.build, targetSwivel { b with speed := ⟨some 850, true⟩, steer := ⟨some (-880), true⟩ }
      .motorway = -74 := by decide +kernel

/-- The oncoming truck of section 3.10 in scene 121. -/
def truck : Track :=
  { state := .confirmed, cls := .oncoming, id := 9, left := -132, right := -118, upper := 9, lower := some 2
    distance := some 380, hits := 2, hold := none, lastScene := 121 }

/-- Chapter 5, under R83: the truck's shadow box. -/
theorem test_shadow_box_example :
    shadowBox builtInClassPolicy builtInMargin truck = ⟨-150, -100, 19, some 2⟩ := by decide

/-- Section 5.11: in scene 121 that box covers columns 5 to 7 of row 1 and nothing of row 0. -/
theorem test_covered_columns_example :
    ((List.finRange 96).filter fun i => covers builtInSegMap.left ⟨-150, -100, 19, some 2⟩ i && decide (i.val < 48))
      = [29, 30, 31] := by decide +kernel

/-- The two windows of section 5.10. -/
def rainWindows : Row 4 FixedWindow :=
  (builtInTables.window.set 0 ⟨.both, -120, 120, 0, -40, .floor, 240, 32⟩).set 1
    ⟨.right, 200, 400, 40, -40, .cap, 150, 60⟩

/-- The build of section 5.10: ADVERSE, band 6 in RIGHT slot 1, two windows, previous level 200. -/
def rainBuild (b : BuildInputs) : BuildInputs :=
  { b with
    weather := ⟨some 6, true⟩, request := ⟨some .highAuto, true⟩
    modules := { b.modules with right := b.modules.right.modify 1 fun m => { m with band := 6 } }
    previous := { b.previous with right := Row.fill 96 200 }
    tables := { b.tables with window := rainWindows } }

/-- Section 5.10: the segment RIGHT row 2 column 12 is 220 after stage 4, 140 after stage 7 and 140 in the end. -/
theorem test_one_segment_example :
    ∀ b ∈ State.reset.pb.build, let r := rainBuild b
      let p := planOf r
      p.mode = .adverse ∧ levelled p 24 .right 60 = 220 ∧ targetLevel r p .right 60 = 140
        ∧ finalLevel r p .right 60 = 140 := by decide +kernel

/-- The generator and starting value of section 11.1 on the nine digits 1 to 9, a check known outside the spec. -/
theorem test_check_value :
    checkValue [0x31, 0x32, 0x33, 0x34, 0x35, 0x36, 0x37, 0x38, 0x39] = 0x29B1 := by decide +kernel

/-- A vehicle frame of speed 850 and steering −450, written out from section 11.2. -/
theorem test_vehicle_payload :
    parseVehicle [0x03, 0x03, 0x52, 0xFE, 0x3E] = some ⟨some 850, some (-450), none, none, none, none⟩ := by decide

/-- An object frame of one report, written out from section 11.2: the truck of scene 121 with confidence 9. -/
theorem test_object_payload :
    parseObject [121, 0x09, 1, 9, 0x13, 0xDF, 0x3C, 0x50, 0x48, 0x11, 0x7C]
      = some ⟨121, 0, true, 1, [some ⟨9, .oncoming, 9, -132, -118, 9, some 2, some 380⟩]⟩ := by decide +kernel

/-- A STATUS of RIGHT module 1, written out from section 11.4: band 6, no fallback, segment 14 failed. -/
theorem test_status_frame :
    linkArrival (withCheck [33, 0x42, 2, 6, 0, 1, 14]) = .good (.status 1 6 false [14]) := by decide +kernel

/-! ## States that meet the statements' hypotheses, and single steps from them

A theorem `test_meets_<Statement>` gives the witness of that statement, one conjunct for each clause. -/

theorem test_meets_StepTakesFrontCommand :
    { State.reset with pending := [.spdEdge] }.pending = [Instr.spdEdge] ∧ State.reset.pending = [] := ⟨rfl, rfl⟩

theorem test_meets_NothingIsTakenWhileHeldInReset : (after .resetPinAsserted State.reset).inReset = true := rfl

/-- Right after reset, with the reply to RESTART in hand. -/
def restarting : State :=
  { withMu fun m => { m with restartPending := true } with
    up := { State.reset.up with tx := some ⟨.reply true, frameOf 1001 [1, 7, 0x50]⟩ } }

theorem test_meets_ResetLeavesTheManagementUnit :
    restarting.inReset = false ∧ restarting.up.tx = some ⟨.reply true, frameOf 1001 [1, 7, 0x50]⟩
      ∧ restarting.mu.restartPending = true := ⟨rfl, rfl, rfl⟩

theorem test_meets_RestartKeepsTablesAndSteeringReference :
    restarting.inReset = false ∧ restarting.up.tx = some ⟨.reply true, frameOf 1001 [1, 7, 0x50]⟩
      ∧ restarting.mu.restartPending = true := ⟨rfl, rfl, rfl⟩

/-- So many microseconds after an edge on SPD at 0. -/
def edgeAgo (us : Nat) : State :=
  { withVehicle fun v => { v with lastEdge := some 0, spdTimer := some 1000000 } with now := us }

theorem test_meets_SpdEdgesAndTheirTimeout :
    State.reset.inReset = false ∧ State.reset.vsb.lastEdge = none
      ∧ (edgeAgo 199).vsb.lastEdge = some 0 ∧ (edgeAgo 199).now - 0 < 200
      ∧ (edgeAgo 200).vsb.lastEdge = some 0 ∧ 200 ≤ (edgeAgo 200).now - 0
      ∧ due (edgeAgo 1000000).now (edgeAgo 1000000).vsb.spdTimer = true
      ∧ due (edgeAgo 999999).now (edgeAgo 999999).vsb.spdTimer = false := by decide +kernel

/-- An edge after 200 µs gives the highest speed, one after 199 µs is a glitch. -/
theorem test_spd_edges :
    (after .spdEdge (edgeAgo 200)).vsb.pinSpeed = 2000
      ∧ (after .spdEdge (edgeAgo 199)).vsb.stats.get Stat.spdGlitches = 1
      ∧ (after .speedTimeoutExpiry (edgeAgo 1000000)).vsb.lastEdge = none := by decide +kernel

theorem test_meets_PinSpeedAndAngleRound :
    1000000 < 1000001 ∧ pinSpeedOf 1000001 1 = 0 ∧ 0 < 1000000 ∧ pinSpeedOf 1000000 8000 = 5
      ∧ roundDiv 1 2 = 1 ∧ roundDiv (-1) 2 = -1 ∧ pinAngleOf 32767 (-78848) 1 = 7200 := by decide +kernel

/-- The steering counter at a value, both lines low. -/
def countAt (n : Int) : State :=
  withVehicle fun v => { v with pin := ⟨n, 0, true, 0, 0⟩ }

theorem test_meets_SteeringStepMovesTheCounter :
    (countAt 32766).inReset = false ∧ (after (.steeringStep .sta) (countAt 32766)).vsb.pin.counter = 32767
      ∧ (after (.steeringStep .sta) (countAt 32767)).vsb.pin = ⟨32767, 0, false, 0, 0⟩
      ∧ (after (.steeringStep .stb) (countAt (-32768))).vsb.pin = ⟨-32768, 0, false, 0, 0⟩ := by decide +kernel

/-- A REFERENCED pin with so many phase errors. -/
def errorsAt (n : Nat) : State :=
  withVehicle fun v => { v with pin := ⟨0, 0, true, n, 0⟩ }

theorem test_meets_PhaseErrorCountsTowardEight :
    (errorsAt 7).inReset = false ∧ min 8 ((errorsAt 7).vsb.pin.phaseErrors + 1) = 8
      ∧ (after .phaseError (errorsAt 7)).vsb.pin.referenced = false
      ∧ (after .phaseError (errorsAt 6)).vsb.pin = ⟨0, 0, true, 7, 0⟩ := by decide +kernel

/-- A vehicle frame waiting with this payload. -/
def vehicleWaiting (payload : List Byte) : State :=
  withPort fun u => { u with vehicleQ := [frameOf 128 payload] }

theorem test_meets_VehicleFrameIsRejectedOrTaken :
    (vehicleWaiting [0]).up.vehicleQ = [frameOf 128 [0]] ∧ parseVehicle [0] = none
      ∧ parseVehicle [2, 0, 100] = some ⟨none, some 100, none, none, none, none⟩
      ∧ builtInVehicle.steerSource = .frameElsePin ∧ State.reset.vsb.pin.referenced = false
      ∧ (after .vehicleFrameTake (vehicleWaiting [2, 0, 100])).vsb.pin.reference = -120
      ∧ (after .vehicleFrameTake (vehicleWaiting [0])).vsb.stats.get Stat.vehFramesRejected = 1 := by decide +kernel

theorem test_meets_VehiclePayloadsDecode :
    FrameInRange ⟨some 2000, some (-7200), some 50, some .flash, some .motorway, some 7⟩
      ∧ parseVehicle [3, 0x07, 0xD0, 0xE3, 0xE0] = some ⟨some 2000, some (-7200), none, none, none, none⟩
      ∧ parseVehicle [1, 0x07, 0xD1] = none ∧ parseVehicle [32, 8] = none ∧ parseVehicle [0] = none
      ∧ parseVehicle [1, 0x07, 0xD0, 0] = none ∧ parseVehicle [64, 0] = none :=
  ⟨by simp [FrameInRange], by decide⟩

/-- Every frame input fresh, its timer due at 5. -/
def allFresh (now : Nat) : State :=
  { withVehicle fun v => { v with
      speedIn := ⟨some 1, some 0, true, some 5⟩, steerIn := ⟨some 1, some 0, true, some 5⟩
      pitch := ⟨some 1, some 0, true, some 5⟩, request := ⟨some .full, some 0, true, some 5⟩
      road := ⟨some .rural, some 0, true, some 5⟩, weather := ⟨some 1, some 0, true, some 5⟩ } with now := now }

theorem test_meets_StalenessExpiryOfEachField :
    (∀ f ∈ [VField.speed, .steering, .pitch, .request, .road, .weather],
      due (allFresh 5).now (fieldTimer (allFresh 5).vsb f) = true
        ∧ due (allFresh 4).now (fieldTimer (allFresh 4).vsb f) = false)
      ∧ (after (.stalenessTimerExpiry .request) (allFresh 5)).pb.rebuild = true := by decide +kernel

theorem test_meets_NewTablesComeIntoForceAtVsbAndTu :
    0 < (withMail fun m => { m with vehicleParams := 1 }).mail.vehicleParams
      ∧ 0 < (withMail fun m => { m with classPolicy := 1 }).mail.classPolicy := by decide

theorem test_meets_RecordFieldsFollowTheSourceTables :
    builtInVehicle.speedSource = .frameElsePin ∧ builtInVehicle.steerSource = .frameElsePin
      ∧ { builtInVehicle with speedSource := .frame, steerSource := .pin }.speedSource = .frame
      ∧ { builtInVehicle with speedSource := .pin, steerSource := .frame }.steerSource = .frame
      ∧ disagreeRaw builtInVehicle { State.reset.vsb with
          steerIn := ⟨some 151, none, true, none⟩, pin := ⟨0, 0, true, 0, 0⟩ } = true
      ∧ disagreeRaw builtInVehicle { State.reset.vsb with
          steerIn := ⟨some 150, none, true, none⟩, pin := ⟨0, 0, true, 0, 0⟩ } = false := by decide +kernel

/-- The witness of the statements that every step keeps an invariant: right after reset, a command in front. -/
def ready : State := { State.reset with pending := [.spdEdge] }

theorem test_meets_VehicleRecordAndPinsStaySound :
    VehicleRecordSound ready ∧ PinsSound ready ∧ step ready = .next (after .spdEdge State.reset) := by
  refine ⟨fun _ => by decide +kernel, ?_, rfl⟩
  refine ⟨by decide, by decide, by decide, by decide, by decide, ?_, ?_⟩
  · exact (by decide : 1 ≤ builtInVehicle.countsPerDegree ∧ builtInVehicle.countsPerDegree ≤ 64)
  · intro p hp
    cases hp

/-! ### SA and TU -/

/-- A frame of an object scene waiting, and SA in this progress. -/
def objectWaiting (payload : List Byte) (progress : Option SceneProgress) : State :=
  { withPort fun u => { u with objectQ := [frameOf 256 payload] } with
    sa := { State.reset.sa with progress := progress } }

/-- Scene 5, one frame of it taken. -/
def sceneFive : SceneProgress := ⟨5, 1, 0, 0, false⟩

theorem test_meets_ObjectFramesThatTearOrAreDiscarded :
    (objectWaiting [5] none).sa.handover = false ∧ (objectWaiting [5] none).up.objectQ = [frameOf 256 [5]]
      ∧ parseObject [5] = none ∧ (objectWaiting [5] (some sceneFive)).sa.progress = some sceneFive
      ∧ (parseObject [5, 0x11, 0, 1, 2, 3, 4, 5, 6, 7, 8]).map (fun o => (o.number, o.index)) = some (5, 1)
      ∧ (parseObject [6, 0x11, 0, 1, 2, 3, 4, 5, 6, 7, 8]).map (fun o => (o.number, o.index)) = some (6, 1)
      ∧ (parseObject [5, 0xA9, 0, 1, 2, 3, 4, 5, 6, 7, 8]).map (fun o => (o.number, o.index)) = some (5, 10)
      ∧ parseObject [5, 0xA1, 0, 1, 2, 3, 4, 5, 6, 7, 8] = none ∧ parseObject [5, 0xB9, 0, 1, 2, 3, 4, 5, 6, 7, 8] = none
      ∧ parseObject [5, 0x08, 34] = none ∧ parseObject [5, 0x0C, 4] = none ∧ parseObject [5, 0x08, 1] = none
      ∧ parseObject [5, 0x11, 0, 1, 2, 3, 4, 5, 6, 7] = none
      ∧ (after .objectFrameTake (objectWaiting [5] (some sceneFive))).mail.events = [.sceneTorn] := by
  decide +kernel

theorem test_meets_ObjectFramesThatOpenOrContinueAScene :
    (parseObject [6, 0x08, 0]).map (fun o => (o.index, o.last, o.announced, o.reports.length)) = some (0, true, 0, 0)
      ∧ (after .objectFrameTake (objectWaiting [6, 0x08, 0] none)).sa.lastScene = some 6
      ∧ (after .objectFrameTake (objectWaiting [6, 0x08, 0] (some sceneFive))).mail.events = [.sceneTorn]
      ∧ (after .objectFrameTake (objectWaiting [5, 0x11, 0, 1, 2, 3, 4, 5, 6, 7, 8] (some sceneFive))).sa.progress
        = some { sceneFive with expected := 2 } := by decide +kernel

/-- A report of an oncoming vehicle. -/
def seen (id : Byte) : Report := ⟨id, .oncoming, 9, -132, -118, 9, some 2, some 380⟩

/-- SA in scene 5 with this buffer. -/
def buffering (n : Nat) : Sa :=
  { State.reset.sa with progress := some sceneFive, buffer := (List.range n).map fun i => seen (BitVec.ofNat 8 i) }

theorem test_meets_ReportsAreKeptDroppedOrCounted :
    (buffering 31).progress = some sceneFive ∧ (buffering 31).buffer.length < 32 ∧ 32 ≤ (buffering 32).buffer.length
      ∧ (∃ b ∈ (buffering 31).buffer, b.id = (seen 30).id ∧ b.cls = (seen 30).cls)
      ∧ (¬∃ b ∈ (buffering 32).buffer, b.id = (seen 99).id ∧ b.cls = (seen 99).cls)
      ∧ (takeReport (buffering 31) (some (seen 99))).buffer.length = 32
      ∧ (takeReport (buffering 32) (some (seen 99))).progress = some ⟨5, 1, 0, 1, true⟩ := by decide +kernel

/-- The truck's report is valid; with its edges changed over, or a distance of 1001, it is not. -/
theorem test_meets_ReportRange :
    ReportInRange (seen 9) ∧ parseReport [9, 0x13, 0xDF, 0x3C, 0x50, 0x48, 0x11, 0x7C] 0 = some (seen 9)
      ∧ parseReport [9, 0x13, 0xE2, 0xBB, 0xD0, 0x48, 0x11, 0x7C] 0 = none
      ∧ parseReport [9, 0x13, 0xDF, 0x3C, 0x50, 0x48, 0x13, 0xE9] 0 = none :=
  ⟨by simp [ReportInRange, seen], by decide +kernel⟩

theorem test_meets_CountCheckCompletesOrTears :
    let p : SceneProgress := ⟨5, 1, 32, 1, true⟩
    p.kept + p.overflow = 33 ∧ p.kept + p.overflow ≠ 32
      ∧ (countCheck 33 { State.reset with sa := { State.reset.sa with progress := some p } }).sa.handover = true
      ∧ (countCheck 32 { State.reset with sa := { State.reset.sa with progress := some p } }).mail.events
        = [.sceneTorn] := by decide +kernel

/-- SA with its scene timer due at 5 and scene 5 in progress. -/
def sceneDue (now : Nat) : State :=
  { withMail fun m => { m with tears := [.detached, .enterConfig] } with
    now := now, sa := { State.reset.sa with timer := some 5, progress := some sceneFive } }

theorem test_meets_SceneTimerExpiryAndOutsideTears :
    due (sceneDue 5).now (sceneDue 5).sa.timer = true ∧ due (sceneDue 4).now (sceneDue 4).sa.timer = false
      ∧ TearCause.enterConfig ∈ (sceneDue 5).mail.tears ∧ (sceneDue 5).sa.progress ≠ none
      ∧ (after .sceneTimerExpiry (sceneDue 5)).mail.toTu = [.aging]
      ∧ (after (.externalSceneTear .enterConfig) (sceneDue 5)).mail.tears = [.detached]
      ∧ (after (.externalSceneTear .enterConfig) (sceneDue 5)).mail.events = [.sceneTorn] := by decide +kernel

/-- A complete scene of one report on its way to TU. -/
def sceneHanded : State :=
  { withMail fun m => { m with toTu := [.scene ⟨7, [seen 9], false⟩] } with
    sa := { State.reset.sa with handover := true } }

theorem test_meets_SceneTakeAssociatesWholeAndTriggers :
    sceneHanded.inReset = false ∧ sceneHanded.mail.toTu = [.scene ⟨7, [seen 9], false⟩]
      ∧ (after .sceneTake sceneHanded).tu.tracks.get 0 = some ⟨.confirmed, .oncoming, 9, -132, -118, 9, some 2,
          some 380, 1, none, 7⟩
      ∧ (after .sceneTake sceneHanded).pb.rebuild = true := by decide +kernel

/-- An association whose table holds these tracks in its first entries. -/
def holding (tracks : List Track) : Assoc :=
  ⟨Row.tabulate fun i => tracks[i.val]?, Row.fill 24 false, Row.fill 14 0, false⟩

/-- The rules of an association right after reset, in scene 7. -/
def rules : AssocRules := ⟨builtInClassPolicy, builtInSegMap, 7, 0⟩

theorem test_meets_MatchUpdatesOrFreesTheTrack :
    (holding [truck]).tracks.get 0 = some truck ∧ truck.id = (seen 9).id ∧ truck.cls = (seen 9).cls
      ∧ whollyOutside builtInSegMap (-132) (-118) = false ∧ whollyOutside builtInSegMap (-300) (-289) = true
      ∧ whollyOutside builtInSegMap (-300) (-288) = false ∧ whollyOutside builtInSegMap 294 300 = true
      ∧ whollyOutside builtInSegMap 293 300 = false
      ∧ (passOne rules ([], holding [truck]) (seen 9)).1 = []
      ∧ (passOne rules ([], holding [truck]) (seen 8)).1 = [seen 8] := by decide +kernel

/-- The truck of the match is the only track of its report id and class. -/
theorem test_match_is_unique (m : TrackNo) (u : Track) (h : (holding [truck]).tracks.get m = some u) : m = 0 := by
  revert h
  rw [show (holding [truck]).tracks.get m = [truck][m.val]? by simp [holding]]
  intro h
  have := (List.getElem?_eq_some_iff.1 h).1
  apply Fin.ext
  simpa using this

/-- Two tracks overlap the report by the same width: the lower number is matched. An overlap of width 0 is none. -/
theorem test_meets_OverlapMatchIsWidestThenLowest :
    (bestOverlap rules (seen 8) (holding [truck, truck])).map (fun b => (b.1, b.2.2)) = some (0, 14)
      ∧ bestOverlap rules { seen 8 with left := -98, right := -90 } (holding [truck]) = none
      ∧ (bestOverlap rules { seen 8 with left := -99, right := -90 } (holding [truck])).map (fun b => b.2.2)
        = some 1 := by decide +kernel

/-- A TENTATIVE streetlight, of the lowest glare priority. -/
def lamppost : Track := { truck with cls := .streetlight, state := .tentative }

theorem test_meets_LeftoverReportsMakeTracks :
    whollyOutside builtInSegMap (seen 8).left (seen 8).right = false
      ∧ (passThree rules (holding [truck]) (seen 8)).stats.get Stat.trkCreated = 1
      ∧ (passThree rules (holding (List.replicate 23 truck ++ [lamppost])) (seen 8)).stats.get Stat.trkReplaced = 1
      ∧ (passThree rules (holding (List.replicate 24 truck)) (seen 8)).dropped = true
      ∧ (passThree rules (holding []) { seen 8 with left := 294, right := 300 }).stats.get Stat.trkOutsideIgnored = 1
      := by decide +kernel

/-- The truck, COASTING, its hold timer due at 5. -/
def coasting : Track := { truck with state := .coasting, hold := some 5 }

/-- A table of one COASTING track, due at 5, and an aging under way. -/
def coastingTable (now : Nat) : State :=
  { withMail fun m => { m with toTu := [.aging] } with
    now := now, tu := ⟨(Row.fill 24 none).set 3 (some coasting), Row.fill 14 0⟩ }

theorem test_meets_HoldExpiryAndSceneTimeoutChanges :
    (coastingTable 5).tu.tracks.get 3 = some coasting
      ∧ due (coastingTable 5).now (some 5) = true ∧ due (coastingTable 4).now (some 5) = false
      ∧ ToTu.aging ∈ (coastingTable 5).mail.toTu
      ∧ (after (.holdTimerExpiry 3) (coastingTable 5)).tu.tracks.get 3 = none
      ∧ (after .sceneTimeoutAging (coastingTable 5)).tu.stats.get Stat.trkStaleAgings = 1 := by decide +kernel

/-- The rules and the table of reset with hold time 0 for every class. -/
def noHold (p : Row 6 ClassPolicy) : Row 6 ClassPolicy :=
  p.map fun e => { e with holdTime := 0 }

/-- At hold time 0 an unmatched CONFIRMED track is freed and counted, at the settling and at an aging (log 33); an
unmatched TENTATIVE one is lost, a matched one confirmed. -/
theorem test_settling_counts :
    let lone : Track := { truck with state := .tentative, hits := 1 }
    let a := holding [truck, lone, { lone with hits := 15 }]
    let t := allTracks.foldl (settleEntry { rules with policy := noHold rules.policy } false)
      { a with matched := a.matched.set 2 true }
    let aged := after .sceneTimeoutAging { coastingTable 0 with
      tu := ⟨(holding [truck]).tracks, Row.fill 14 0⟩
      mu := { State.reset.mu with tables := { builtInTables with classPolicy := noHold builtInClassPolicy } } }
    truck.state = .confirmed ∧ t.tracks.get 0 = none ∧ t.tracks.get 1 = none
      ∧ (t.tracks.get 2).map Track.state = some .confirmed
      ∧ (t.stats.get Stat.trkHoldExpiries, t.stats.get Stat.trkTentativeLost, t.stats.get Stat.trkConfirms) = (1, 1, 1)
      ∧ aged.tu.tracks.get 0 = none ∧ aged.tu.stats.get Stat.trkHoldExpiries = 1 := by decide +kernel

/-! ### PB -/

/-- Right after reset and the end of the first build. -/
def built : State := after .buildCompletion State.reset

theorem test_meets_BuildTriggerStartsOrMerges :
    State.reset.pb.build ≠ none ∧ built.pb.build = none ∧ built.mu.commitPending = false
      ∧ { built with mu := { built.mu with commitPending := true } }.mu.commitPending = true := by decide +kernel

/-- The first build after reset is FALLBACK or LOW by its inputs: no request has come, so it is LOW. -/
theorem test_first_build :
    built.pb.mode = .low ∧ built.pb.generation = 1 ∧ built.mail.records.length = 1
      ∧ ((built.pb.previous.get .left).get 0, (built.pb.previous.get .left).get 60) = (0, 16) := by decide +kernel

theorem test_meets_BuildRefreshAndCompletion :
    due 40000 State.reset.pb.refresh = true ∧ due 39999 State.reset.pb.refresh = false
      ∧ built.pb.build = none ∧ State.reset.pb.build.isSome = true := by decide +kernel

/-- A build's inputs right after reset, changed. -/
def inputs (f : BuildInputs → BuildInputs) : BuildInputs :=
  f (inputsOf State.reset.vsb State.reset.tu State.reset.links State.reset.cm State.reset.mu State.reset.pb)

/-- Every case of R67 and R68 is met, at the ends of the ranges that decide it. -/
theorem test_meets_ModeIsTheFirstTestThatHolds :
    let auto (f : BuildInputs → BuildInputs) :=
      chooseMode (inputs fun b => f { b with request := ⟨some .highAuto, true⟩ })
    chooseMode (inputs fun b => { b with request := ⟨some .off, true⟩, config := .config }) = .off
      ∧ chooseMode (inputs fun b => { b with config := .config }) = .fallback
      ∧ chooseMode (inputs fun b => { b with request := ⟨some .off, true⟩, action := .fallback }) = .off
      ∧ chooseMode (inputs fun b => { b with action := .fallback }) = .fallback
      ∧ chooseMode (inputs fun b => { b with request := ⟨some .full, true⟩, action := .lowOnly }) = .low
      ∧ chooseMode (inputs fun b => { b with request := ⟨some .full, true⟩, holdLow := true }) = .low
      ∧ chooseMode (inputs fun b => { b with request := ⟨some .flash, true⟩ }) = .full
      ∧ auto (fun b => { b with weather := ⟨some b.tables.mode.adverseThreshold, true⟩ }) = .adverse
      ∧ auto (fun b => { b with streetlights := b.tables.mode.townThreshold, speed := ⟨none, false⟩ }) = .town
      ∧ auto (fun b => { b with road := ⟨some .urban, true⟩, speed := ⟨some 2000, true⟩ }) = .town
      ∧ auto (fun b => { b with speed := ⟨some (b.tables.mode.townSpeed - 1), true⟩ }) = .town
      ∧ auto (fun b => { b with speed := ⟨some b.tables.mode.townSpeed, true⟩ }) = .country
      ∧ auto (fun b => { b with speed := ⟨some b.tables.mode.townSpeed, true⟩, mode := .town }) = .town
      ∧ auto (fun b => { b with
          speed := ⟨some b.tables.mode.motorwaySpeed, true⟩, road := ⟨some .motorway, true⟩ }) = .motorway
      ∧ auto (fun b => { b with
          speed := ⟨some (b.tables.mode.motorwaySpeed - 1), true⟩, road := ⟨some .motorway, true⟩ }) = .country := by
  decide +kernel

theorem test_meets_RampAndSwivelMoveByAtMostTheirStep :
    moveSwivel 8 0 8 = 8 ∧ moveSwivel 8 0 9 = 8 ∧ moveSwivel 8 0 (-8) = -8 ∧ moveSwivel 8 0 (-9) = -8
      ∧ ramp 16 64 0 17 = 16 ∧ ramp 16 64 0 16 = 16 ∧ ramp 16 64 65 0 = 1 ∧ ramp 16 64 64 0 = 0 := by decide

/-- A plan of the TOWN profile with this edge rule, shifted one column right and one row up. -/
def shifted (edge : EdgeRule) : Plan :=
  ⟨.town, 24, 1, { builtInTables.profile.get 1 with edge := edge }, [], []⟩

/-- The curve at its end points and in its last band, the row shift at its ends, and both edge rules past the edge. -/
theorem test_meets_SwivelTargetsAndShifts :
    let swivel (speed : Nat) (a : Int) := targetSwivel (inputs fun b => { b with
      speed := ⟨some speed, true⟩, steer := ⟨some a, true⟩ }) .country
    let row (x : Int) (m : Mode) := rowShiftOf (inputs fun b => { b with pitch := ⟨some x, true⟩ }) m
    (swivel 0 (-7200), swivel 300 3600, swivel 2000 900, swivel 2000 0) = (-150, 150, 40, 0)
      ∧ (row 50 .town, row (-50) .town, row 9 .town, row 50 .off) = (-1, 1, 0, 0)
      ∧ levelled (shifted .hold) 24 .left 6 = 60 ∧ levelled (shifted .hold) 24 .left 7 = 100
      ∧ levelled (shifted .hold) 24 .left 95 = 220 ∧ levelled (shifted .dark) 24 .left 24 = 0
      ∧ levelled (shifted .dark) 24 .left 72 = 0 ∧ levelled (shifted .dark) 24 .left 25 = 220 := by decide +kernel

/-- One CONFIRMED truck shades a HIGH segment; a failed segment of slot 0 is dark. -/
theorem test_meets_FinalLevelsObeyEveryHardLimit :
    let b := inputs fun b => { b with
      tracks := b.tracks.set 0 (some truck), request := ⟨some .highAuto, true⟩, action := .dim
      speed := ⟨some 850, true⟩, modules := { b.modules with left := b.modules.left.modify 0 fun m =>
        { m with failed := [3] } } }
    let p := planOf b
    p.mode = .country ∧ p.hard = [⟨⟨-150, -100, 19, some 2⟩, 0⟩]
      ∧ covers (b.tables.segMap.get .left) ⟨-150, -100, 19, some 2⟩ 29 = true
      ∧ (b.tables.segMap.get .left).high.get 29 = true ∧ b.action = .dim
      ∧ ((b.tables.modules.get .left).get 0).present = true
      ∧ windowSegment ((b.tables.modules.get .left).get 0) 3 = some 3
      ∧ (planOf (inputs fun b => { b with request := ⟨some .off, true⟩ })).mode = .off
      ∧ (planOf (inputs id)).mode = .low
      ∧ (modeRow b.tables.mode (chooseMode b)).shadowsApply = true ∧ (policyOf b.tables.classPolicy .oncoming).hard = true
      ∧ (shadowBox b.tables.classPolicy b.tables.margin { truck with distance := some 1000 }).left = -146
      ∧ (shadowBox b.tables.classPolicy b.tables.margin { truck with distance := none }).left = -162 := by
  decide +kernel

/-- A sign where the truck was: its shadow is soft, and lowers the segment to 60. -/
theorem test_meets_SoftShadow :
    let b := inputs fun b => { b with
      tracks := b.tracks.set 0 (some { truck with cls := .sign, lower := none }), request := ⟨some .highAuto, true⟩
      speed := ⟨some 850, true⟩ }
    let p := planOf b
    p.hard = [] ∧ p.soft.map (fun x => x.level) = [60] ∧ levelled p 24 .left 29 = 200
      ∧ shade (b.tables.segMap.get .left) p.soft 29 (levelled p 24 .left 29) = 60
      ∧ targetLevel b p .left 29 = 60 ∧ derateBand b .left 29 = 0 := by decide +kernel

/-! ### SLC -/

/-- A STATUS of LEFT slot 0: this band, no fallback, nothing failed. -/
def statusBytes (band : Byte) : List Byte := withCheck [33, 2, 2, band, 0, 0, 0]

/-- A PASS_UP of LEFT slot 0 of code 5 and payload 1. -/
def passUpBytes : List Byte := withCheck [34, 2, 2, 0, 5, 1, 1]

/-- Right after reset, with so many frames in the Pass-Up queue and one in hand. -/
def passUpsWaiting (n : Nat) : State :=
  withPort fun u => { u with
    tx := some ⟨.passUp, frameOf 9 []⟩, passUpQ := List.replicate n ⟨5, []⟩ }

theorem test_meets_LinkFramesAreClassedAndHandedOn :
    linkArrival [1, 2] = .error ∧ linkArrival (withCheck [33, 2, 33]) = .error
      ∧ linkArrival (withCheck [35, 2, 0]) = .rejected ∧ linkArrival (statusBytes 8) = .rejected
      ∧ linkArrival (withCheck [33, 0xC2, 2, 7, 0, 0, 0]) = .good (.status 3 7 false [])
      ∧ effState ((State.reset.links.get .left).modules.get 3) = .absent
      ∧ linkArrival (withCheck [32, 2, 1, 4, 0]) = .good (.blockAck 0 4)
      ∧ effState ((State.reset.links.get .left).modules.get 0) ≠ .absent
      ∧ linkArrival passUpBytes = .good (.passUp 0 5 [1])
      ∧ (passUpsWaiting 7).up.passUpQ.length < 8 ∧ 8 ≤ (passUpsWaiting 8).up.passUpQ.length
      ∧ (after (.linkFrameReceive .left passUpBytes) (passUpsWaiting 7)).up.passUpQ.length = 8
      ∧ (after (.linkFrameReceive .left passUpBytes) (passUpsWaiting 8)).up.stats.get Stat.upPassUpDropped = 1 := by
  decide +kernel

/-- The ends of the ranges that a PASS_UP's code and a window's order are stated over. -/
theorem test_codes_and_windows_at_their_ends :
    (passUpCode 1023).toNat = 1023 ∧ (windowSegments (builtInTables.modules.left.get 0)).length = 48
      ∧ (windowSegments (builtInTables.modules.left.get 0))[0]? = some 0
      ∧ (windowSegments (builtInTables.modules.left.get 0))[47]?
        = windowSegment (builtInTables.modules.left.get 0) 47 := by decide +kernel

/-- LEFT slot 0 in this record. -/
def moduleAs (f : ModuleRec → ModuleRec) : State :=
  withLeft fun c => { c with modules := c.modules.modify 0 f }

theorem test_meets_StatusUpdatesTheModule :
    linkArrival (statusBytes 7) = .good (.status 0 7 false [])
      ∧ effState ((State.reset.links.get .left).modules.get 0) = .joining
      ∧ (moduleRec (after (.linkFrameReceive .left (statusBytes 0))
          (moduleAs fun m => { m with outstanding := some (.join, 9) })) .left 0).state = .active
      ∧ (moduleRec (after (.linkFrameReceive .left (statusBytes 0))
          (moduleAs fun m => { m with outstanding := some (.poll, 9) })) .left 0).state = .joining
      ∧ (after (.linkFrameReceive .left (statusBytes 7)) State.reset).pb.rebuild = true := by decide +kernel

/-- LEFT slot 0 ACTIVE with so many misses and its reply timer due at 9, the transmitter as given. -/
def missing (isolation : Bool) (misses : Nat) (tx : LinkTx) : State :=
  { withLeft fun c => { c with
      tx := tx, modules := c.modules.modify 0 fun m => { m with
        state := .active, misses := misses, outstanding := some (.poll, 9) } } with
    now := 9, mu := { State.reset.mu with isolation := isolation } }

theorem test_meets_ReplyTimeoutCountsAMissAndMayBreak :
    due 9 (replyTimer (moduleRec (missing true 0 .idle) .left 0)) = true
      ∧ due 8 (replyTimer (moduleRec (missing true 0 .idle) .left 0)) = false
      ∧ effState (moduleRec (missing true 0 .idle) .left 0) ≠ .absent
      ∧ (moduleRec (after (.replyTimerExpiry .left 0) (missing true 1 .idle)) .left 0).state = .active
      ∧ (moduleRec (after (.replyTimerExpiry .left 0) (missing true 2 .idle)) .left 0).state = .broken
      ∧ (moduleRec (after (.replyTimerExpiry .left 0) (missing false 2 .idle)) .left 0).state = .broken
      ∧ (missing true 2 (.sending (.poll 0) 3)).links.left.tx = .sending (.poll 0) 3
      ∧ ((after (.replyTimerExpiry .left 0) (missing true 2 (.sending (.poll 0) 3))).links.left.stats.get
          Stat.lnkTxCut) = 1
      ∧ ((after (.replyTimerExpiry .left 0) (missing true 2 (.sending (.poll 1) 3))).links.left.stats.get
          Stat.lnkTxCut) = 0
      ∧ (after (.replyTimerExpiry .left 0) (missing true 2 (.sending (.pattern (.block 0 1 [])) 3))).links.left.stats.get
          Stat.lnkBlocksSent = 1 := by decide +kernel

theorem test_meets_PollTimerFillsThePollGroup :
    due 100000 State.reset.links.left.pollTimer = true ∧ due 99999 State.reset.links.left.pollTimer = false
      ∧ (after (.pollTimerExpiry .left) { moduleAs fun m => { m with state := .active } with now := 100000
          }).links.left.poll.cells = [some .join, some .join, none, none] := by decide +kernel

/-- LEFT with nothing waiting. -/
def quiet (last : Member) : Slc :=
  { State.reset.links.left with poll := Row.fill 4 none, lastGranted := last }

/-- LEFT with Pattern (p), Pass (q) or a Poll group entry of slot 2 waiting. -/
def waitingFor (last : Member) (p q poll : Bool) : Slc :=
  { quiet last with
    patternQ := if p then [.apply 1] else [], passQ := if q then [⟨5, []⟩] else []
    poll := if poll then (quiet last).poll.set 2 (some .poll) else (quiet last).poll }

/-- The grants of R116 to R118 by what waits; at a wake end the parked member after `last` wins, insistent pattern or
not. -/
theorem test_meets_WakeEndGrantsOrParks :
    let link (insistent : Bool) := { builtInTables.link with insistent := insistent }
    let grant (insistent : Bool) (last : Member) (p q poll : Bool) : LinkTx :=
      (nextGrant (link insistent) (builtInTables.modules.get .left) (waitingFor last p q poll)).tx
    let wake (last : Member) (p q poll : Bool) : LinkTx :=
      (wakeGrant (link true) (builtInTables.modules.get .left) (waitingFor last p q poll)).tx
    State.reset.links.left.tx = .waking ∧ builtInTables.link.insistent = true
      ∧ wake .pattern true true true = .sending (.forwarded ⟨5, []⟩) 0
      ∧ wake .pattern true false true = .sending (.poll 2) 0
      ∧ wake .pattern true false false = .sending (.pattern (.apply 1)) 0
      ∧ wake .pollGroup true true true = .sending (.pattern (.apply 1)) 0
      ∧ wake .pass true true true = .sending (.poll 2) 0 ∧ wake .pass false false false = .idle
      ∧ grant true .pattern false false false = .idle
      ∧ grant true .pattern true true true = .sending (.pattern (.apply 1)) 0
      ∧ grant false .pattern true true true = .sending (.forwarded ⟨5, []⟩) 0
      ∧ grant true .pass true true true = .sending (.poll 2) 0
      ∧ grant true .pollGroup true true true = .sending (.pattern (.apply 1)) 0
      ∧ grant true .pollGroup false true true = .sending (.forwarded ⟨5, []⟩) 0
      ∧ grant true .pollGroup false false true = .sending (.poll 2) 0 := by decide +kernel

/-- A generation of a dark pair of lamps. -/
def darkGen (number : Byte) : GenRecord := ⟨number, .fallback, 0, 0, none, darkLevels⟩

/-- LEFT sending this frame, DU in this delivery, the RIGHT APPLY transmitted or not. -/
def sending (f : LinkFrame) (delivery : Option (GenRecord × Phase)) (right : Bool) : State :=
  { withLeft fun c => { c with tx := .sending f 3, poll := Row.fill 4 none } with
    du := { State.reset.du with delivering := delivery, applyDone := ⟨false, right⟩ } }

theorem test_meets_LinkTransmissionsCompleteByKind :
    (after (.linkTxComplete .left) (sending (.pattern (.block 0 1 [])) none false)).links.left.stats.get
        Stat.lnkBlocksSent = 1
      ∧ (after (.linkTxComplete .left) (sending (.forwarded ⟨5, []⟩) none false)).links.left.stats.get
        Stat.lnkPassSent = 1
      ∧ (moduleRec (after (.linkTxComplete .left) (sending (.poll 0) none false)) .left 0).outstanding
        = some (.poll, 5000)
      ∧ (moduleRec (after (.linkTxComplete .left) (sending (.join 3 moduleAbsent) none false)) .left 3).outstanding
        = none
      ∧ (after (.linkTxComplete .left) (sending (.pattern (.apply 4)) (some (darkGen 4, .applying)) true)).cm.fbk
        = true
      ∧ (after (.linkTxComplete .left) (sending (.pattern (.apply 4)) (some (darkGen 4, .applying)) false)).du.applyDone
        = ⟨true, false⟩ := by decide +kernel

theorem test_meets_FramesDecodeFromTheirWire :
    (frameOf 1023 (List.replicate 32 255)).payload.length ≤ 32
      ∧ upArrival (upWire (frameOf 1023 (List.replicate 32 255))) = .good (frameOf 1023 (List.replicate 32 255))
      ∧ upArrival [1, 2] = .cut ∧ upArrival [1, 2, 33] = .long ∧ upArrival [1, 2, 1, 0, 0] = .cut
      ∧ linkArrival [33, 2, 1, 4, 0, 0] = .error ∧ linkArrival (withCheck [32, 2, 2, 4, 0, 0, 0]) = .rejected
      ∧ linkArrival (withCheck [33, 2, 3, 0, 0, 2, 1, 1, 0]) = .rejected
      ∧ linkArrival (withCheck [33, 2, 2, 0, 2, 0, 0]) = .rejected
      ∧ linkArrival (withCheck [34, 2, 3, 0, 5, 1, 1, 0, 0]) = .rejected
      ∧ (7 : Nat) ≤ 7 ∧ [(1 : Byte), 2, 3, 4, 5, 6, 7, 255].length ≤ 8 ∧ [(1 : Byte), 2, 3, 4, 5, 6, 7, 255].Nodup
      ∧ (65535 : Nat) < 65536 := by decide +kernel

/-! ### DU -/

/-- A generation handed over, DU in this delivery and with this waiting. -/
def genHanded (delivery : Option (GenRecord × Phase)) (waiting : Option GenRecord) : State :=
  { withMail fun m => { m with records := [darkGen 5] } with
    du := { State.reset.du with delivering := delivery, waiting := waiting }
    links := { State.reset.links with right := { State.reset.links.right with
      modules := State.reset.links.right.modules.modify 1 fun m => { m with state := .active } } } }

theorem test_meets_GenerationsAreDeliveredWaitOrSupersede :
    (genHanded none none).mail.records = [darkGen 5]
      ∧ (after .generationTake (genHanded none none)).du.ackSet = [(.right, 1)]
      ∧ (after .generationTake (genHanded (some (darkGen 4, .blocks)) none)).du.waiting = some (darkGen 5)
      ∧ (after .generationTake (genHanded (some (darkGen 4, .blocks)) (some (darkGen 3)))).du.stats.get
        Stat.duSuperseded = 1
      ∧ (after .generationTake { genHanded none none with links := State.reset.links }).du.noModules = true := by
  decide +kernel

/-- Generation 4 being delivered to two modules of the LEFT link, with these messages from the links. -/
def delivering (acks : List Ack) (broken : List (Link × Slot)) : State :=
  { withMail fun m => { m with acks := acks, broken := broken } with
    du := { State.reset.du with
      delivering := some (darkGen 4, .blocks), ackSet := [(.left, 0), (.left, 1)], applyTimer := some 9 } }

theorem test_delivering_is_sound (acks : List Ack) (broken : List (Link × Slot)) :
    DeliverySound (delivering acks broken) :=
  ⟨(by decide : [(Link.left, (0 : Slot)), (.left, 1)].Nodup), List.cons_ne_nil _ _, rfl⟩

theorem test_meets_AcksAndBreaksShrinkTheAckSet :
    (delivering [⟨.left, 0, 4⟩] []).mail.acks.find? (fun a => decide (a.link = .left)) = some ⟨.left, 0, 4⟩
      ∧ (after (.blockAckTake .left) (delivering [⟨.left, 0, 4⟩] [])).du.ackSet = [(.left, 1)]
      ∧ (after (.blockAckTake .left) (delivering [⟨.left, 0, 3⟩] [])).du.stats.get Stat.duAcksStale = 1
      ∧ (after (.blockAckTake .left) (delivering [⟨.left, 2, 4⟩] [])).du.stats.get Stat.duAcksUnexpected = 1
      ∧ (delivering [] [(.left, 1)]).mail.broken.find? (fun m => decide (m.1 = .left)) = some (.left, 1)
      ∧ (after (.brokenNoticeTake .left) (delivering [] [(.left, 1)])).du.ackSet = [(.left, 0)]
      ∧ (after (.brokenNoticeTake .left) (delivering [] [(.left, 3)])).du.ackSet = [(.left, 0), (.left, 1)] := by
  decide +kernel

/-- The last acknowledgement starts the APPLY on both links. -/
theorem test_last_ack_applies :
    let t := after (.blockAckTake .left) { delivering [⟨.left, 0, 4⟩] [] with
      du := { (delivering [] []).du with ackSet := [(.left, 0)] } }
    t.du.delivering = some (darkGen 4, .applying) ∧ t.links.right.patternQ = [.apply 4] := by decide +kernel

theorem test_meets_ApplyTimeoutAbandonsTheGeneration :
    due 9 (delivering [] []).du.applyTimer = true ∧ due 8 (delivering [] []).du.applyTimer = false
      ∧ (delivering [] []).du.delivering = some (darkGen 4, .blocks)
      ∧ (after .applyTimerExpiry { delivering [] [] with now := 9 }).mail.events = [.applyAbandoned]
      ∧ (moduleRec (after .applyTimerExpiry { delivering [] [] with now := 9 }) .left 1).misses = 1
      ∧ effState (moduleRec State.reset .left 3) = .absent
      ∧ (moduleRec (chargeMiss .left 0 (missing true 1 .idle)) .left 0).state = .active
      ∧ (chargeMiss .left 0 (missing false 2 .idle)).links.left.stats.get Stat.lnkBreaks = 1
      ∧ (chargeMiss .left 0 (missing true 2 (.sending (.poll 1) 3))).links.left.stats.get Stat.lnkTxCut = 0
      ∧ (chargeMiss .left 0 (missing true 2 (.sending (.poll 0) 3))).links.left.stats.get Stat.lnkTxCut = 1 := by
  decide +kernel

/-! ### CM -/

/-- One condition in this record and this entry of the table, with a report of it under way. -/
def reporting (c : Cond) (l : Option Link) (value : Bool) (f : CondRec → CondRec) : State :=
  { withCond c f with mail := { State.reset.mail with levels := [⟨c, l, value⟩] } }

/-- The state and the timers of a condition after a command. -/
def condAfter (c : Cond) (i : Instr) (s : State) : CondState × Timer × Timer :=
  let r := condRec (after i s) c
  (r.state, r.persist, r.recover)

theorem test_meets_LevelConditionsMoveByTheirMachine :
    (reporting .speedStale none true id).mail.levels.find?
        (fun x => decide (x.cond = .speedStale) && decide (x.link = none)) = some ⟨.speedStale, none, true⟩
      ∧ condAfter .speedStale (.levelRawReport .speedStale none) (reporting .speedStale none false id)
        = (.clear, none, none)
      ∧ condAfter .speedStale (.levelRawReport .speedStale none) (reporting .speedStale none true id)
        = (.alert, some 500000, none)
      ∧ condAfter .moduleBroken (.levelRawReport .moduleBroken (some .left))
        (reporting .moduleBroken (some .left) true id) = (.fault, none, none)
      ∧ condAfter .speedStale (.levelRawReport .speedStale none) (reporting .speedStale none false fun r =>
          { r with raw := true, state := .alert, persist := some 9 }) = (.clear, none, none)
      ∧ condAfter .speedStale (.levelRawReport .speedStale none) (reporting .speedStale none false fun r =>
          { r with raw := true, state := .fault }) = (.recovering, none, some 500000)
      ∧ condAfter .speedStale (.levelRawReport .speedStale none) (reporting .speedStale none true fun r =>
          { r with state := .recovering, recover := some 9 }) = (.fault, none, none)
      ∧ condAfter .speedStale (.persistenceTimerExpiry .speedStale)
        (withCond .speedStale fun r => { r with raw := true, state := .alert, persist := some 0 }) = (.fault, none, none)
      ∧ condAfter .speedStale (.levelRecoveryTimerExpiry .speedStale)
        (withCond .speedStale fun r => { r with state := .recovering, recover := some 0 }) = (.clear, none, none) := by
  decide +kernel

/-- An event of SCENE_TORN under way: it needs ten to enter FAULT. -/
def torn (f : CondRec → CondRec) : State :=
  { withCond .sceneTorn f with mail := { State.reset.mail with events := [.sceneTorn] } }

theorem test_meets_EventConditionsMoveByTheirMachine :
    Cond.sceneTorn ∈ (torn id).mail.events ∧ condKind .sceneTorn = .event
      ∧ condAfter .sceneTorn (.conditionEvent .sceneTorn) (torn id) = (.alert, none, some 2000000)
      ∧ condAfter .tableRejected (.conditionEvent .tableRejected) { torn id with
          mail := { State.reset.mail with events := [.tableRejected] } } = (.fault, none, some 1000000)
      ∧ condAfter .sceneTorn (.conditionEvent .sceneTorn) (torn fun r =>
          { r with state := .alert, count := 8, recover := some 9 }) = (.alert, none, some 2000000)
      ∧ condAfter .sceneTorn (.conditionEvent .sceneTorn) (torn fun r =>
          { r with state := .alert, count := 9, recover := some 9 }) = (.fault, none, some 2000000)
      ∧ condAfter .sceneTorn (.conditionEvent .sceneTorn) (torn fun r =>
          { r with state := .recovering, recover := some 9 }) = (.fault, none, some 2000000)
      ∧ condAfter .sceneTorn (.eventRecoveryTimerExpiry .sceneTorn) (torn fun r =>
          { r with state := .fault, recover := some 0 }) = (.recovering, none, some 2000000)
      ∧ condAfter .sceneTorn (.eventRecoveryTimerExpiry .sceneTorn) (torn fun r =>
          { r with state := .alert, count := 1, recover := some 0 }) = (.clear, none, none) := by decide +kernel

/-- Entering FAULT joins the latched report set, raises the action level and places the NOTICE, which is sent at
once. -/
theorem test_meets_ConditionMovesReportAndAct :
    let t := after (.levelRawReport .moduleBroken (some .left)) (reporting .moduleBroken (some .left) true id)
    t.cm.action = .lowOnly ∧ t.cm.latched.get 8 = true ∧ t.cm.outstanding = true ∧ t.pb.rebuild = true
      ∧ t.up.tx.map (fun x => x.frame.payload) = some [2, 1, 0, 0, 0, 128, 0, 2]
      ∧ State.reset.cm.outstanding = false ∧ State.reset.up.notice = none := by decide +kernel

/-- MODULE_BROKEN in FAULT, its latching just changed from yes to no. -/
def unlatching (raw : Bool) : State :=
  { withCond .moduleBroken fun r => { r with state := .fault, rawLeft := raw } with
    mail := { State.reset.mail with condTable := [⟨latchings builtInCondition, Row.fill 16 false⟩] } }

theorem test_meets_ConditionTableComesIntoForce :
    (unlatching true).mail.condTable = [⟨latchings builtInCondition, Row.fill 16 false⟩]
      ∧ (latchings builtInCondition).get 8 = true
      ∧ condAfter .moduleBroken .conditionTableInForce (unlatching true) = (.fault, none, none)
      ∧ condAfter .moduleBroken .conditionTableInForce (unlatching false) = (.clear, none, none)
      ∧ (after .conditionTableInForce (unlatching true)).cm.action = .lowOnly := by decide +kernel

/-- OBJECT_OVERRUN in FAULT, its latching just changed from yes to no. -/
def unlatchingEvent : State :=
  { withCond .objectOverrun fun r => { r with state := .fault, count := 9 } with
    mail := { State.reset.mail with
      condTable := [⟨(latchings builtInCondition).set 2 true, (latchings builtInCondition).set 2 false⟩] } }

theorem test_meets_unlatching_of_events_and_recovery_times :
    condNo .objectOverrun = 2 ∧ condKind .objectOverrun = .event
      ∧ condAfter .objectOverrun .conditionTableInForce unlatchingEvent = (.fault, none, some 2000000)
      ∧ condAfter .moduleBroken .conditionTableInForce { unlatching false with mu := { State.reset.mu with
          tables := { builtInTables with condition := builtInCondition.modify 8 fun e => { e with recovery := 1 } } } }
        = (.recovering, none, some 1000) := by decide +kernel

theorem test_unlatching_is_sound : ConfigSound (unlatching true) :=
  ⟨fun h => absurd h (by decide), fun h => absurd h (by decide)⟩

/-! ### UP -/

/-- A port of this state and score. -/
def portAt (port : PortState) (score : Nat) : State :=
  withPort fun u => { u with port := port, score := score, recovery := if port = .detached then some 9 else none }

/-- A frame whose check value is wrong. -/
def badCheck : List Byte := [0, 2, 0, 1, 2]

theorem test_meets_ReceiveErrorsMoveTheScoreAndPort :
    upArrival badCheck = .badCheck ∧ upArrival [0, 2, 33] = .long ∧ upArrival [0, 2] = .cut
      ∧ upArrival [0, 2, 1, 5, 5] = .cut ∧ (portAt .detached 200).up.port = .detached
      ∧ (portAt .normal 0).up.rxFrom + 0 ≤ (portAt .normal 0).now
      ∧ (after (.upstreamFrameReceive 0 badCheck) (portAt .normal 41)).up.port = .normal
      ∧ (after (.upstreamFrameReceive 0 badCheck) (portAt .normal 42)).up.stats.get Stat.linkDegraded = 1
      ∧ (after (.upstreamFrameReceive 0 badCheck) (portAt .warned 137)).up.port = .warned
      ∧ (after (.upstreamFrameReceive 0 badCheck) (portAt .warned 138)).up.recovery = some 100000 := by decide +kernel

/-- R153: LINK_DETACHED is in FAULT, the action DIM and the NOTICE in the slot within the event that enters DETACHED; a
report of it that still waited is taken first. -/
theorem test_meets_detaching_within_the_event :
    let s := { portAt .warned 138 with mail := { State.reset.mail with levels := [⟨.linkDetached, none, false⟩] } }
    let t := after (.upstreamFrameReceive 0 badCheck) s
    (condRec t .linkDetached).state = .fault ∧ t.cm.action = .dim ∧ t.up.notice.isSome = true ∧ t.up.tx = none
      ∧ t.mail.levels = [] ∧ t.mail.tears = [.detached]
      ∧ (s.mu.tables.condition.get 14).persistence = 0 ∧ (s.mu.tables.condition.get 14).report = .fault := by
  decide +kernel

/-- A frame begun before the receiver took up the line is ignored, one begun as it did is not. -/
theorem test_meets_frames_begun_too_early :
    let s := { withPort fun u => { u with rxFrom := 7 } with now := 9 }
    s.now < s.up.rxFrom + 3 ∧ s.up.rxFrom + 2 ≤ s.now
      ∧ (after (.upstreamFrameReceive 3 badCheck) s).up.score = 0
      ∧ (after (.upstreamFrameReceive 2 badCheck) s).up.score = 6 := by decide +kernel

/-- A good frame of this code, on the wire. -/
def goodBytes (code : BitVec 10) : List Byte := upWire (frameOf code [])

/-- Queues so full. -/
def queued (n : Nat) : State :=
  withPort fun u => { u with
    mgmtQ := List.replicate n (frameOf 1000 []), objectQ := List.replicate n (frameOf 256 [])
    vehicleQ := List.replicate n (frameOf 128 []) }

/-- The Filter Table with one entry more: this action for the code 600. -/
def filtering (a : FilterAction) (passed : Nat) : State :=
  { withMu fun m => { m with tables := { m.tables with filter := m.tables.filter.set 2 ⟨true, 600, 1023, a⟩ } } with
    links := { State.reset.links with left := { State.reset.links.left with
      passQ := List.replicate passed ⟨600, []⟩ } } }

theorem test_reset_port_is_sound : PortSound State.reset :=
  ⟨fun _ => by decide, fun h => absurd h (by decide), fun h => absurd h (by decide), by decide⟩

/-- How many frames stand in these queues of UP: Management, Object, Vehicle. -/
def depths (s : State) : Nat × Nat × Nat :=
  (s.up.mgmtQ.length, s.up.objectQ.length, s.up.vehicleQ.length)

theorem test_meets_GoodFramesAreSorted :
    upArrival (goodBytes 1000) = .good (frameOf 1000 [])
      ∧ depths (after (.upstreamFrameReceive 0 (goodBytes 1000)) (queued 3)) = (4, 3, 3)
      ∧ depths (after (.upstreamFrameReceive 0 (goodBytes 1000)) (queued 4)) = (4, 4, 4)
      ∧ depths (after (.upstreamFrameReceive 0 (goodBytes 271)) (queued 23)) = (23, 24, 23)
      ∧ (after (.upstreamFrameReceive 0 (goodBytes 256)) (queued 24)).mail.events = [.objectOverrun]
      ∧ depths (after (.upstreamFrameReceive 0 (goodBytes 131)) (queued 3)) = (3, 3, 4)
      ∧ (after (.upstreamFrameReceive 0 (goodBytes 128)) (queued 4)).up.stats.get Stat.upVehDisplaced = 1
      ∧ (after (.upstreamFrameReceive 0 (goodBytes 132)) (queued 0)).up.stats.get Stat.upUnmatched = 1
      ∧ (after (.upstreamFrameReceive 0 (goodBytes 600)) (filtering .discard 0)).up.stats.get Stat.upDiscarded = 1
      ∧ (after (.upstreamFrameReceive 0 (goodBytes 600)) (filtering .passLeft 7)).links.left.passQ.length = 8
      ∧ (after (.upstreamFrameReceive 0 (goodBytes 600)) (filtering .passBoth 8)).links.left.stats.get
        Stat.lnkPassDropped = 1
      ∧ (after (.upstreamFrameReceive 0 (goodBytes 600)) (filtering .passRight 8)).links.right.passQ.length = 1 := by
  decide +kernel

theorem test_meets_UpstreamTransmissionsInFixedOrder :
    (passUpsWaiting 1).up.tx = some ⟨.passUp, frameOf 9 []⟩ ∧ due 9 (portAt .detached 200).up.recovery = true
      ∧ due 8 (portAt .detached 200).up.recovery = false
      ∧ (after .upstreamTxComplete (passUpsWaiting 1)).up.tx.map (fun x => x.frame.code) = some 5
      ∧ (after .detachedRecovery { portAt .detached 200 with now := 9 }).up.port = .normal
      ∧ (upStartUp 0 { State.reset.up with
          notice := some ⟨[2], some 7⟩, passUpQ := [⟨5, []⟩] }).tx = some ⟨.notice, ⟨1001, 7, true, [2]⟩⟩
      ∧ (upStartUp 0 { State.reset.up with
          replyQ := [⟨[1], false⟩], notice := some ⟨[2], none⟩ }).tx.map (fun x => x.kind) = some (.reply false)
      ∧ (upStartUp 0 { State.reset.up with
          held := some ⟨.passUp, frameOf 9 []⟩, replyQ := [⟨[1], false⟩] }).stats.get Stat.upTxResent = 1 := by
  decide +kernel

/-! ### MU -/

/-- The status of the reply that a command leaves in hand. -/
def statusAfter (c : Instr) (s : State) : Option Nat :=
  (after c s).up.tx.map fun x => u8 x.frame.payload 2 % 16

theorem test_meets_MalformedAndReadingRequestsAreAnswered :
    Takes (asking 1 []) (frameOf 1000 [1, 7]) [] ∧ Asks (frameOf 1000 [1, 7]) 1 []
      ∧ statusAfter .malformedRequest (asking 21 []) = some 5 ∧ statusAfter .malformedRequest (asking 1 [0]) = some 2
      ∧ statusAfter .malformedRequest (asking 0 []) = some 5
      ∧ statusAfter .malformedRequest (asking 3 []) = some 2
      ∧ statusAfter .malformedRequest (asking 5 [0]) = some 2 ∧ statusAfter .malformedRequest (asking 7 [0, 0, 0]) = some 2
      ∧ statusAfter .malformedRequest (asking 8 [0]) = some 2
      ∧ statusAfter .malformedRequest (asking 18 (List.replicate 17 0)) = some 2
      ∧ statusAfter .malformedRequest (asking 19 [2, 0]) = some 2
      ∧ statusAfter .malformedRequest (asking 19 [0, 0, 0]) = some 2
      ∧ statusAfter .malformedRequest (withPort fun u => { u with mgmtQ := [frameOf 1000 [1]] }) = some 2
      ∧ ([0, 1, 2, 3, 4].all fun part => decide (statusAfter .readState (asking 2 [part]) = some 0)) = true
      ∧ statusAfter .readInfo (asking 1 []) = some 0
      ∧ statusAfter .readState (asking 2 [4]) = some 0 ∧ statusAfter .readState (asking 2 [5]) = some 2
      ∧ statusAfter .readTracks (asking 3 [23]) = some 0 ∧ statusAfter .readTracks (asking 3 [24]) = some 2
      ∧ statusAfter .readModules (asking 4 [1, 3]) = some 0 ∧ statusAfter .readModules (asking 4 [2, 0]) = some 2
      ∧ statusAfter .readConditions (asking 5 [13, 3]) = some 0
      ∧ statusAfter .readConditions (asking 5 [14, 3]) = some 2 :=
  ⟨⟨rfl, rfl, by decide, rfl⟩, ⟨rfl, 7, rfl⟩, by decide +kernel⟩

theorem test_meets_reading_of_statistics_and_tables :
    statusAfter .readStatistics (asking 6 [8, 7, 12, 1]) = some 0
      ∧ statusAfter .readStatistics (asking 6 [8, 8, 12, 1]) = some 2
      ∧ statusAfter .readStatistics (asking 6 [9, 0, 4, 2]) = some 2
      ∧ statusAfter .readTable (asking 7 [5, 0, 12, 4]) = some 0
      ∧ statusAfter .readTable (asking 7 [5, 0, 13, 4]) = some 2
      ∧ statusAfter .readTable (asking 7 [5, 1, 12, 4]) = some 1
      ∧ statusAfter .readTable { asking 7 [4, 1, 0, 8] with
          mu := { State.reset.mu with staged := { emptyStaging with derate := some builtInDerate } } } = some 0 := by
  decide +kernel

/-- A whole Derate Table with this level for band 0. -/
def derateBytes (first : Byte) : List Byte := [first, 255, 255, 255, 230, 190, 140, 80]

/-- A request waiting beside this staging area and commit-pending flag. -/
def staging (code : Byte) (args : List Byte) (derate : Row 8 Nat) (pending : Bool) : State :=
  { asking code args with mu := { State.reset.mu with
      staged := { emptyStaging with derate := some derate }, commitPending := pending } }

theorem test_meets_TablesAreLoadedCommittedAndDiscarded :
    statusAfter .loadTable (asking 8 (4 :: 0 :: derateBytes 255)) = some 0
      ∧ statusAfter .loadTable (asking 8 (4 :: 1 :: derateBytes 255)) = some 2
      ∧ statusAfter .loadTable (asking 8 [8, 0, 0, 0, 0, 0, 0, 0]) = some 1
      ∧ statusAfter .loadTable (askingInConfig 8 (4 :: 0 :: derateBytes 255)) = some 0
      ∧ statusAfter .loadTable (staging 8 (4 :: 0 :: derateBytes 255) builtInDerate true) = some 4
      ∧ statusAfter .commitTables (asking 9 []) = some 1 ∧ statusAfter .commitTables (askingInConfig 9 []) = some 1
      ∧ statusAfter .commitTables (staging 9 [] builtInDerate false) = some 0
      ∧ statusAfter .commitTables (staging 9 [] builtInDerate true) = some 4
      ∧ statusAfter .discardStaged (staging 10 [] builtInDerate true) = some 4
      ∧ statusAfter .discardStaged (staging 10 [] builtInDerate false) = some 0 := by decide +kernel

/-- Right after reset in RUN, a Margin Table staged whose second band does not rise, and this request. -/
def fallingMargin (code : Byte) (args : List Byte) : State :=
  { asking code args with mu := { State.reset.mu with staged := { emptyStaging with
      margin := some { builtInMargin with bands := builtInMargin.bands.set 1 ⟨50, 16⟩ } } } }

theorem test_meets_tables_that_fail_their_checks :
    statusAfter .loadTable (asking 8 [7, 0, 0, 16, 64, 40, 6]) = some 3
      ∧ statusAfter .loadTable (asking 8 [7, 0, 1, 16, 64, 40, 7]) = some 0
      ∧ statusAfter .loadTable (askingInConfig 8 [7, 0, 8, 16, 64, 40, 8]) = some 3
      ∧ statusAfter .commitTables (fallingMargin 9 []) = some 3
      ∧ (after .commitTables (fallingMargin 9 [])).mail.events = [.tableRejected]
      ∧ statusAfter .exitConfig { askingInConfig 12 [] with mu := { State.reset.mu with
          config := .config, tables := overlay (fallingMargin 9 []).mu.staged builtInTables } } = some 3
      ∧ ((after .commitTables (fallingMargin 9 [])).up.tx.map fun x => x.frame.payload.drop 3) = some [2, 1] := by
  decide +kernel

theorem test_meets_ConfigurationIsEnteredLeftAndRestarted :
    State.reset.vsb.speed = ⟨some 0, .pin, true⟩ ∧ statusAfter .enterConfig (asking 11 []) = some 0
      ∧ statusAfter .enterConfig { asking 11 [] with vsb := { State.reset.vsb with
          speed := ⟨some 49, .pin, true⟩ } } = some 0
      ∧ statusAfter .enterConfig { asking 11 [] with vsb := { State.reset.vsb with
          speed := ⟨some 50, .pin, true⟩ } } = some 1
      ∧ statusAfter .exitConfig (asking 12 []) = some 1 ∧ statusAfter .exitConfig (askingInConfig 12 []) = some 0
      ∧ statusAfter .restart (asking 20 []) = some 0 ∧ statusAfter .restart (askingInConfig 20 []) = some 1
      ∧ (after .restart (asking 20 [])).mu.restartPending = true := by decide +kernel

/-- The set-up at EXIT_CONFIG wakes an idle transmitter, keeps the Pass queue, takes the blocks to slots not present and
sends the four raw values of each link. -/
theorem test_exit_config_sets_the_links_up :
    let s := { askingInConfig 12 [] with links := { State.reset.links with left := { quiet .pass with
      tx := .idle, passQ := [⟨5, []⟩], patternQ := [.block 0 4 [], .block 3 4 [], .apply 4] } } }
    let t := after .exitConfig s
    t.links.left.tx = .waking ∧ t.links.left.passQ = [⟨5, []⟩]
      ∧ t.links.left.patternQ = [.block 0 4 [], .apply 4]
      ∧ t.mail.levels.length = s.mail.levels.length + 8 := by decide +kernel

theorem test_meets_CommandsOfOtherBlocksAreCarriedOut :
    statusAfter .holdLow (asking 13 []) = some 0 ∧ (after .holdLow (asking 13 [])).mu.holdLow = true
      ∧ statusAfter .releaseHold (asking 14 []) = some 0 ∧ statusAfter .setIsolation (asking 15 [1]) = some 0
      ∧ statusAfter .setIsolation (asking 15 [2]) = some 2 ∧ statusAfter .setSteerZero (asking 16 []) = some 0
      ∧ statusAfter .clearTracks (asking 17 []) = some 0 ∧ statusAfter .clearNotice (asking 18 [15]) = some 0
      ∧ statusAfter .clearNotice (asking 18 [16]) = some 2
      ∧ statusAfter .recoverCondition (asking 19 [0, 15]) = some 0
      ∧ statusAfter .recoverCondition (asking 19 [0, 16]) = some 2
      ∧ statusAfter .recoverCondition { asking 19 [0, 8] with cm := (unlatching true).cm } = some 1
      ∧ statusAfter .recoverCondition { asking 19 [0, 8] with cm := (unlatching false).cm } = some 0
      ∧ statusAfter .recoverModule (asking 19 [1, 1, 1]) = some 0
      ∧ statusAfter .recoverModule (asking 19 [1, 1, 3]) = some 1
      ∧ statusAfter .recoverModule (asking 19 [1, 1, 4]) = some 2 := by decide +kernel

/-- SPEED_STALE and MODULE_BROKEN latched, LEFT slot 0 BROKEN. -/
def latchedTwo (code : Byte) (args : List Byte) : State :=
  { asking code args with
    cm := { State.reset.cm with latched := (State.reset.cm.latched.set 8 true).set 15 true, outstanding := true }
    links := (moduleAs fun m => { m with state := .broken }).links }

/-- CLEAR_NOTICE that leaves a condition latched sends the fresh NOTICE first, its reply behind it; SET_ISOLATION sends
a BROKEN module back to JOINING. -/
theorem test_meets_clearing_in_part_and_rejoining :
    let t := after .clearNotice (latchedTwo 18 [15])
    t.cm.latched = State.reset.cm.latched.set 8 true ∧ t.cm.outstanding = true
      ∧ t.cm.stats.get Stat.cmNotices = 1 ∧ t.up.tx.map (fun x => x.kind) = some .notice ∧ t.up.replyQ.length = 1
      ∧ (after .clearNotice (latchedTwo 18 [15, 8])).cm.outstanding = false
      ∧ (moduleRec (after .setIsolation (latchedTwo 15 [0])) .left 0).state = .joining
      ∧ statusAfter .recoverModule (latchedTwo 19 [1, 0, 0]) = some 0
      ∧ (moduleRec (after .recoverModule (latchedTwo 19 [1, 0, 0])) .left 0).state = .joining := by decide +kernel

/-! ### Invariants -/

theorem test_meets_QueuesConfigurationPortAndNoticesStaySound :
    QueuesBounded ready ∧ ConfigSound ready ∧ PortSound ready ∧ NoticesSound ready
      ∧ step ready = .next (after .spdEdge State.reset) := by
  refine ⟨?_, ⟨fun h => absurd h (by decide), fun h => absurd h (by decide)⟩, test_reset_port_is_sound, ?_, rfl⟩
  · unfold QueuesBounded
    decide +kernel
  · exact ⟨by decide +kernel, fun h => absurd h (by decide)⟩

theorem test_meets_DeliveryStaysSound :
    DeliverySound { delivering [⟨.left, 0, 4⟩] [] with pending := [.blockAckTake .left] }
      ∧ step { delivering [⟨.left, 0, 4⟩] [] with pending := [.blockAckTake .left] }
        = .next (after (.blockAckTake .left) (delivering [⟨.left, 0, 4⟩] [])) :=
  ⟨test_delivering_is_sound [⟨.left, 0, 4⟩] [], rfl⟩

/-- A transmitter that is WAKING sends no APPLY. -/
theorem waking_sends_none {t : LinkTx} (h : t = .waking) : ¬SendsApply t := by
  rintro ⟨_, _, e⟩
  rw [h] at e
  cases e

/-- Each phase of a delivery agrees with the Pattern queues somewhere: none; BLOCKS; APPLYING with one APPLY being sent
and the other transmitted; APPLYING with both still queued. -/
theorem test_meets_PatternQueuesStaySound :
    DeliverySound ready ∧ PatternSound ready ∧ PatternSound (delivering [⟨.left, 0, 4⟩] [])
      ∧ PatternSound (sending (.pattern (.apply 4)) (some (darkGen 4, .applying)) true)
      ∧ PatternSound (applyNow (darkGen 4) (delivering [] [])) := by
  have idle : ∀ l, (State.reset.links.get l).patternQ = [] ∧ ¬SendsApply (State.reset.links.get l).tx := by
    intro l
    cases l <;> exact ⟨rfl, waking_sends_none (by decide +kernel)⟩
  have blocks : ∀ acks l, LinkAgrees l (delivering acks []) := fun acks l =>
    ⟨by cases l <;> rfl, by rw [show ((delivering acks []).links.get l).patternQ = [] from (idle l).1]; exact
      ⟨by decide, by simp⟩, (idle l).2⟩
  refine ⟨⟨List.nodup_nil, rfl, rfl, rfl⟩, .ofLinks fun l => ⟨(idle l).1, (idle l).2⟩, .ofLinks (blocks _),
    .ofLinks fun l => ?_, .ofLinks fun l => applyNow_agrees (blocks [] l) rfl⟩
  cases l
  · exact .inr (.inl ⟨rfl, ⟨_, _, rfl⟩, rfl⟩)
  · exact .inr (.inr ⟨rfl, (idle .right).2, (idle .right).1⟩)

theorem test_meets_ConditionRecordsStaySound :
    ConditionsSound ready ∧ step ready = .next (after .spdEdge State.reset) := by
  refine ⟨⟨?_, ?_, by decide +kernel, by decide +kernel⟩, rfl⟩
  · intro c h
    cases c <;> first | exact absurd h (by decide) | (unfold LevelRecordSound; decide +kernel)
  · intro c h
    cases c <;> first | exact absurd h (by decide) | (unfold EventRecordSound; decide +kernel)

theorem test_meets_TrackTableStaysSound :
    KeysDistinct ready ∧ TracksSound ready ∧ step ready = .next (after .spdEdge State.reset) := by
  have free : ∀ n : TrackNo, ready.tu.tracks.get n = none := by decide +kernel
  refine ⟨⟨?_, by decide, fun x h => nomatch h⟩, ?_, rfl⟩
  · intro m n t u h
    rw [free m] at h
    exact nomatch h
  · intro n t h
    rw [free n] at h
    exact nomatch h

theorem test_meets_LinksStayAwake :
    LinksAwake ready ∧ step ready = .next (after .spdEdge State.reset) := by
  refine ⟨Or.inr fun l h => ?_, rfl⟩
  cases l <;> exact absurd h (by decide)

theorem test_meets_LinkRawsStaySound :
    LinkRawsSound ready ∧ step ready = .next (after .spdEdge State.reset)
      ∧ (linkRaws builtInTables .left ((moduleAs fun m => { m with
          state := .active, band := 6, failed := [0], selfFallback := true }).links.left.modules)).overtemp = true
      ∧ windowSegment (builtInTables.modules.left.get 0) 0 = some 0
      ∧ windowSegment (builtInTables.modules.left.get 0) 48 = none := by
  refine ⟨fun l => ?_, rfl, by decide +kernel⟩
  cases l <;> exact ⟨by decide +kernel, by decide +kernel, by decide +kernel, fun _ => by decide +kernel⟩

/-- A table word spells no command, and an empty queue lets a microsecond pass. -/
theorem test_word_and_tick :
    decodeTableWord 8 0 = none ∧ State.reset.withFetchWord 8 0 = State.reset
      ∧ step State.reset = .next { State.reset with now := 1 } := ⟨rfl, rfl, rfl⟩

end Sys2Proof.Tests
end

/-! The pins of the Vehicle State Block: what an edge of SPD, the speed timeout, a sample of STA and STB and a phase
error leave (sections 1.3 and 1.4), and the statements about them. -/

namespace Sys2Proof.Machine

/-! ## SPD -/

/-- The first edge only becomes the last taken one and starts the speed timeout (R5). -/
theorem takeEdge_first {s : State} (h : s.vsb.lastEdge = none) :
    takeEdge s = { s with vsb := { s.vsb with
      lastEdge := some s.now, spdTimer := timerIn s s.mu.tables.vehicle.speedTimeout } } := by
  simp only [takeEdge, h, startTimer_eq]

/-- An edge less than 200 µs after the last taken one is a glitch (R5). -/
theorem takeEdge_glitch {s : State} {t : Nat} (h : s.vsb.lastEdge = some t) (hlt : s.now - t < 200) :
    takeEdge s = countVehicle Stat.spdGlitches s := by
  simp only [takeEdge, h, if_pos hlt]

/-- An edge 200 µs or more after the last taken one captures the period (R5). -/
theorem takeEdge_captures {s : State} {t : Nat} (h : s.vsb.lastEdge = some t) (hle : 200 ≤ s.now - t) :
    takeEdge s = captureEdge (s.now - t) s := by
  simp only [takeEdge, h, if_neg (Nat.not_lt.mpr hle)]

/-- VSB with a period captured now: the edge is the last taken one, the speed timeout restarts and the pin speed is the
period's (R5, R6). -/
def capturedVsb (period : Nat) (s : State) : Vsb :=
  { s.vsb with
    lastEdge := some s.now, period := some period
    pinSpeed := pinSpeedOf period s.mu.tables.vehicle.pulsesPerKm
    spdTimer := timerIn s s.mu.tables.vehicle.speedTimeout }

/-- A captured period re-evaluates the speed just where it changes the pin speed (R5, R14). -/
theorem captureEdge_eq (period : Nat) (s : State) :
    captureEdge period s = if pinSpeedOf period s.mu.tables.vehicle.pulsesPerKm = s.vsb.pinSpeed
      then { s with vsb := capturedVsb period s } else afterSpeed (capturedVsb period s) s := by
  simp only [captureEdge, speedChanged_eq, startTimer_eq, capturedVsb]

/-- The speed timeout forgets edge and period and re-evaluates the speed (R7). -/
theorem expireSpeedTimeout_eq (s : State) :
    expireSpeedTimeout s = afterSpeed { s.vsb with
      pinSpeed := 0, lastEdge := none, period := none, spdTimer := none
      stats := bumpAt Stat.spdTimeouts s.vsb.stats } s :=
  speedChanged_eq _ s

/-- SPD_EDGE outside a reset is the taking of the edge. -/
theorem exec_spdEdge {s : State} (h : s.inReset = false) : exec .spdEdge s = .next (takeEdge s) :=
  running_awake h takeEdge

/-- SPEED_TIMEOUT_EXPIRY outside a reset, when due, is the expiry. -/
theorem exec_speedTimeoutExpiry {s : State} (h : s.inReset = false) (hdue : due s.now s.vsb.spdTimer = true) :
    exec .speedTimeoutExpiry s = .next (expireSpeedTimeout s) :=
  whenever_holds h hdue expireSpeedTimeout

/-- Settles O9: the three branches of `takeEdge`, and the expiry. -/
theorem spdEdgesAndTheirTimeout : Obligations.SpdEdgesAndTheirTimeout := by
  intro s h
  refine ⟨fun hfirst => ?first, fun t hlast hlt => ?glitch, fun t hlast hle => ?captured, fun hdue => ?timeout⟩
  case first => rw [exec_spdEdge h, takeEdge_first hfirst]
  case glitch => rw [exec_spdEdge h, takeEdge_glitch hlast hlt, countVehicle]
  case captured => rw [exec_spdEdge h, takeEdge_captures hlast hle, captureEdge_eq]; rfl
  case timeout => rw [exec_speedTimeoutExpiry h hdue, expireSpeedTimeout_eq]

/-! ## STA and STB -/

@[simp] theorem flipLine_inReset (line : SteerLine) (s : State) : (flipLine line s).inReset = s.inReset := by
  cases line <;> rfl

@[simp] theorem flipLine_vsb (line : SteerLine) (s : State) : (flipLine line s).vsb = s.vsb := by
  cases line <;> rfl

@[simp] theorem flipLine_mu (line : SteerLine) (s : State) : (flipLine line s).mu = s.mu := by
  cases line <;> rfl

/-- An edge of STA steps up where its new level differs from STB's (R8). -/
theorem stepsUp_sta (rising other : Bool) : stepsUp .sta rising other = (rising != other) := by
  cases rising <;> cases other <;> rfl

/-- An edge of STB steps up where its new level agrees with STA's (R8). -/
theorem stepsUp_stb (rising other : Bool) : stepsUp .stb rising other = (rising == other) := by
  cases rising <;> cases other <;> rfl

/-- The check of a range is its two bounds. -/
theorem within_iff (lo hi x : Int) : within lo hi x = true ↔ lo ≤ x ∧ x ≤ hi := by
  simp [within]

/-- A step inside the counter's range moves it and re-evaluates the steering (R8, R11, R15). -/
theorem stepCounter_inside {n : Int} (h : -32768 ≤ n ∧ n ≤ 32767) (s : State) :
    stepCounter n s
      = afterSteer { s.vsb with pin := steppedPin s.mu.tables.vehicle.countsPerDegree n s.vsb.pin } s := by
  rw [stepCounter, if_pos ((within_iff _ _ _).mpr h), steerChanged_eq]

/-- A step beyond the counter's range is counted and leaves the pin UNREFERENCED (R10). -/
theorem stepCounter_beyond {n : Int} (h : ¬(-32768 ≤ n ∧ n ≤ 32767)) (s : State) :
    stepCounter n s = afterSteer { s.vsb with
      pin := { s.vsb.pin with referenced := false }, stats := bumpAt Stat.steerSaturations s.vsb.stats } s := by
  rw [stepCounter, if_neg (mt (within_iff _ _ _).mp h)]
  exact steerChanged_eq _ s

/-- The counter after one sample in which just this line changed (R8). -/
def sampledCounter (line : SteerLine) (s : State) : Int :=
  counterAfter (stepsUp line (!lineLevel line s) (lineLevel (otherLine line) s)) s.vsb.pin.counter

/-- STEERING_STEP outside a reset moves the line and steps the counter. -/
theorem exec_steeringStep {s : State} (h : s.inReset = false) (line : SteerLine) :
    exec (.steeringStep line) s = .next (stepCounter (sampledCounter line s) (flipLine line s)) := by
  have awake : (flipLine line s).inReset = false := by rw [flipLine_inReset, h]
  calc exec (.steeringStep line) s
      = .next (stepCounter (counterAfter (stepsUp line (!lineLevel line s) (lineLevel (otherLine line) s))
          (flipLine line s).vsb.pin.counter) (flipLine line s)) := running_awake awake _
    _ = _ := by rw [flipLine_vsb, sampledCounter]

/-- What STEERING_STEP leaves on either side of the ends of the counter's range (R8, R10). -/
theorem exec_steeringStep_cases {s : State} (h : s.inReset = false) (line : SteerLine) :
    let n := sampledCounter line s
    (-32768 ≤ n ∧ n ≤ 32767 → exec (.steeringStep line) s = .next (afterSteer { s.vsb with
        pin := steppedPin s.mu.tables.vehicle.countsPerDegree n s.vsb.pin } (flipLine line s)))
    ∧ (¬(-32768 ≤ n ∧ n ≤ 32767) → exec (.steeringStep line) s = .next (afterSteer { s.vsb with
        pin := { s.vsb.pin with referenced := false }
        stats := bumpAt Stat.steerSaturations s.vsb.stats } (flipLine line s))) := by
  refine ⟨fun inside => ?_, fun beyond => ?_⟩
  · rw [exec_steeringStep h, stepCounter_inside inside, flipLine_vsb, flipLine_mu]
  · rw [exec_steeringStep h, stepCounter_beyond beyond, flipLine_vsb]

/-- Settles O11: line by line, the model's table of R8 is the direction the statement reads off the two levels. -/
theorem steeringStepMovesTheCounter : Obligations.SteeringStepMovesTheCounter := by
  intro line s h
  have cases_of_range := exec_steeringStep_cases h line
  cases line with
  | sta => rwa [sampledCounter, stepsUp_sta] at cases_of_range
  | stb => rwa [sampledCounter, stepsUp_stb] at cases_of_range

/-! ## Phase errors -/

/-- VSB with one more phase error, at most 8, counted (R9). -/
def phaseErrorVsb (v : Vsb) : Vsb :=
  { v with
    pin := { v.pin with phaseErrors := min 8 (v.pin.phaseErrors + 1) }
    stats := bumpAt Stat.steerPhaseErrors v.stats }

/-- The phase error that brings the count of a REFERENCED pin to 8 makes the pin UNREFERENCED (R9). -/
theorem countPhaseError_at_eight {s : State}
    (h : (phaseErrorVsb s.vsb).pin.phaseErrors = 8 ∧ (phaseErrorVsb s.vsb).pin.referenced = true) :
    countPhaseError s = afterSteer { phaseErrorVsb s.vsb with
      pin := { (phaseErrorVsb s.vsb).pin with referenced := false } } s := by
  obtain ⟨count, ref⟩ := h
  have cond : (decide (min 8 (s.vsb.pin.phaseErrors + 1) = 8) && s.vsb.pin.referenced) = true :=
    (Bool.and_eq_true _ _).mpr ⟨decide_eq_true count, ref⟩
  exact (if_pos cond).trans (steerChanged_eq _ s)

/-- Any other phase error is only counted (R9). -/
theorem countPhaseError_below {s : State}
    (h : ¬((phaseErrorVsb s.vsb).pin.phaseErrors = 8 ∧ (phaseErrorVsb s.vsb).pin.referenced = true)) :
    countPhaseError s = { s with vsb := phaseErrorVsb s.vsb } := by
  have cond : ¬(decide (min 8 (s.vsb.pin.phaseErrors + 1) = 8) && s.vsb.pin.referenced) = true := by
    rw [Bool.and_eq_true, decide_eq_true_iff]
    exact h
  exact if_neg cond

/-- PHASE_ERROR outside a reset moves both lines and counts the error. -/
theorem exec_phaseError {s : State} (h : s.inReset = false) :
    exec .phaseError s = .next (countPhaseError { s with sta := !s.sta, stb := !s.stb }) :=
  running_awake (s := { s with sta := !s.sta, stb := !s.stb }) h countPhaseError

/-- Settles O12: the two branches of `countPhaseError` after both lines have moved. -/
theorem phaseErrorCountsTowardEight : Obligations.PhaseErrorCountsTowardEight := by
  intro s h
  refine ⟨fun eighth => ?_, fun other => ?_⟩
  · exact (exec_phaseError h).trans (congrArg _ (countPhaseError_at_eight eighth))
  · exact (exec_phaseError h).trans (congrArg _ (countPhaseError_below other))

end Sys2Proof.Machine

/-! The object reports of a frame: which eight bytes are a valid report, and what SA does with each report of a frame
that belongs to the scene in progress (section 2.3), and the statement about them. -/

namespace Sys2Proof.Machine

/-! ## The fields of a report's number -/

/-- Each byte read adds one digit to the base 256. -/
theorem bytesNumber_lt (bs : List Byte) (i count : Nat) :
    (List.range count).foldl (fun n k => n * 256 + u8 bs (i + k)) 0 < 256 ^ count := by
  induction count with
  | zero => exact Nat.one_pos
  | succ count ih =>
    have byte : u8 bs (i + count) < 256 := (bs.getD (i + count) 0).isLt
    rw [List.range_succ, List.foldl_append, List.foldl_cons, List.foldl_nil, Nat.pow_succ]
    omega

/-- The 64 digits of a report are the number of its eight bytes. -/
theorem u64_toNat (bs : List Byte) (i : Nat) :
    (u64 bs i).toNat = (List.range 8).foldl (fun n k => n * 256 + u8 bs (i + k)) 0 := by
  rw [u64, BitVec.toNat_ofNat]
  exact Nat.mod_eq_of_lt (bytesNumber_lt bs i 8)

/-- A field of `m` digits from digit `k` up is a quotient's remainder. -/
theorem extractLsb'_eq_div_mod {n : Nat} (w : BitVec n) (k m : Nat) :
    (w.extractLsb' k m).toNat = w.toNat / 2 ^ k % 2 ^ m := by
  rw [BitVec.extractLsb'_toNat, Nat.shiftRight_eq_div_pow]

/-- Digits that say a number in two's complement are those of its remainder. -/
theorem toInt_eq_iff {m : Nat} (hm : 0 < m) (v : BitVec m) {x : Int} (lo : -2 ^ (m - 1) ≤ x) (hi : x < 2 ^ (m - 1)) :
    v.toInt = x ↔ v.toNat = (x % (2 ^ m : Nat)).toNat := by
  have self : (BitVec.ofInt m x).toInt = x := BitVec.toInt_ofInt_eq_self hm lo hi
  rw [← BitVec.toNat_ofInt, BitVec.toNat_inj, ← BitVec.toInt_inj, self]

/-- A value with one code set aside for its absence (R179) is read as `o` just where it is `o`'s, and `o` does not
carry that code. -/
theorem unlessAbsent_eq_iff {α : Type} [DecidableEq α] (x absent : α) (o : Option α) :
    (if x = absent then none else some x) = o ↔ x = o.getD absent ∧ absent ∉ o := by
  cases o with
  | none => simp
  | some y =>
    rw [Option.ite_none_left_eq_some, Option.some_inj, Option.getD_some, Option.mem_some_iff]
    exact ⟨fun ⟨carried, value⟩ => ⟨value, value ▸ carried⟩, fun ⟨value, carried⟩ => ⟨value ▸ carried, value⟩⟩

/-- The class of a code is the one with that code (section 11.6). -/
theorem classOf_eq_some (n : Nat) (c : ObjClass) : classOf n = some c ↔ n = (classNo c).val := by
  unfold classOf
  split <;> cases c <;> simp_all [classNo]

/-! ## Which reports are valid (R24) -/

/-- The report that 64 digits say, if it is of this class (section 11.2). -/
def saidReport (w : BitVec 64) (cls : ObjClass) : Report :=
  { id := w.extractLsb' 56 8, cls := cls, confidence := (w.extractLsb' 49 4).toNat
    left := (w.extractLsb' 38 11).toInt, right := (w.extractLsb' 27 11).toInt, upper := (w.extractLsb' 19 8).toInt
    lower := if (w.extractLsb' 11 8).toInt = -128 then none else some (w.extractLsb' 11 8).toInt
    distance := if (w.extractLsb' 0 11).toNat = 2047 then none else some (w.extractLsb' 0 11).toNat }

/-- The check of R24 on a report that has a class. -/
def edgesAndDistanceOk (r : Report) : Bool :=
  within (-400) 400 r.left && within (-400) 400 r.right && within (-100) 100 r.upper && decide (r.left ≤ r.right)
    && r.lower.all (fun y => within (-100) 100 y && decide (y ≤ r.upper))
    && r.distance.all (fun d => decide (d ≤ 1000))

/-- Eight bytes are read as the report they say, if their code has a class and the report passes its check. -/
theorem parseReport_eq (bs : List Byte) (i : Nat) :
    parseReport bs i = (classOf ((u64 bs i).extractLsb' 53 3).toNat).bind fun cls =>
      keepIf (edgesAndDistanceOk (saidReport (u64 bs i) cls)) (saidReport (u64 bs i) cls) := by
  simp only [parseReport]
  cases classOf ((u64 bs i).extractLsb' 53 3).toNat <;> rfl

/-- A report passes the check just where it lies in the ranges of R24. -/
theorem reportInRange_iff (r : Report) :
    ReportInRange r ↔ edgesAndDistanceOk r = true ∧ r.confidence ≤ 15 := by
  simp only [ReportInRange, edgesAndDistanceOk, Bool.and_eq_true, within_iff, decide_eq_true_eq, Option.all_eq_true]
  constructor
  · rintro ⟨hl, hlr, hr, hu, hu', hc, hlow, hd⟩
    exact ⟨⟨⟨⟨⟨⟨⟨hl, hlr.trans hr⟩, hl.trans hlr, hr⟩, hu, hu'⟩, hlr⟩,
      fun y hy => ⟨⟨(hlow y hy).1, (hlow y hy).2.trans hu'⟩, (hlow y hy).2⟩⟩, hd⟩, hc⟩
  · rintro ⟨⟨⟨⟨⟨⟨⟨hl, -⟩, -, hr⟩, hu, hu'⟩, hlr⟩, hlow⟩, hd⟩, hc⟩
    exact ⟨hl, hlr, hr, hu, hu', hc, fun y hy => ⟨(hlow y hy).1.1, (hlow y hy).2⟩, hd⟩

/-- The confidence read is a number of four digits. -/
theorem saidReport_confidence_le (w : BitVec 64) (cls : ObjClass) : (saidReport w cls).confidence ≤ 15 :=
  Nat.le_of_lt_succ (w.extractLsb' 49 4).isLt

/-- A valid report is one in its ranges that the bytes say, its class by its code (R24). -/
theorem parseReport_eq_some (bs : List Byte) (i : Nat) (r : Report) :
    parseReport bs i = some r ↔ ReportInRange r
      ∧ ((u64 bs i).extractLsb' 53 3).toNat = (classNo r.cls).val ∧ saidReport (u64 bs i) r.cls = r := by
  rw [parseReport_eq, Option.bind_eq_some_iff]
  simp only [keepIf_eq_some, classOf_eq_some]
  constructor
  · rintro ⟨cls, code, ok, rfl⟩
    exact ⟨(reportInRange_iff _).mpr ⟨ok, saidReport_confidence_le _ _⟩, code, rfl⟩
  · rintro ⟨inRange, code, said⟩
    exact ⟨r.cls, code, by rw [said]; exact ((reportInRange_iff r).mp inRange).1, said⟩

/-! ## The number of a report (section 11.2) -/

/-- The report said is `r` just where each field's digits say `r`'s value, an absent lower edge as
-128 and an absent distance as 2047. -/
theorem saidReport_eq_iff {r : Report} (h : ReportInRange r) (w : BitVec 64) :
    saidReport w r.cls = r ↔ w.extractLsb' 56 8 = r.id ∧ (w.extractLsb' 49 4).toNat = r.confidence
      ∧ (w.extractLsb' 38 11).toInt = r.left ∧ (w.extractLsb' 27 11).toInt = r.right
      ∧ (w.extractLsb' 19 8).toInt = r.upper ∧ (w.extractLsb' 11 8).toInt = r.lower.getD (-128)
      ∧ (w.extractLsb' 0 11).toNat = r.distance.getD 2047 := by
  obtain ⟨-, -, -, -, -, -, lowBound, distBound⟩ := h
  have lowCarried : (-128 : Int) ∉ r.lower := fun mem => absurd (lowBound _ mem).1 (by decide)
  have distCarried : 2047 ∉ r.distance := fun mem => absurd (distBound _ mem) (by decide)
  obtain ⟨id, cls, confidence, left, right, upper, lower, distance⟩ := r
  simp only [saidReport, Report.mk.injEq, unlessAbsent_eq_iff, lowCarried, distCarried, true_and, not_false_eq_true,
    and_true]

/-- A number is split in one way into a multiple of the base and a digit. -/
theorem eq_mul_add_iff {n b q d : Nat} (hd : d < b) : n = q * b + d ↔ n / b = q ∧ n % b = d := by
  rw [Nat.div_mod_unique (Nat.zero_lt_of_lt hd)]
  constructor
  · rintro rfl
    exact ⟨by ring, hd⟩
  · rintro ⟨rfl, -⟩
    ring

/-- A number is made up of eight digits by the weights of an object report just where each is the remainder
of that field's quotient: the digits are split off one by one, the distance first. -/
theorem reportDigits_iff {n id cls conf left right upper lower dist : Nat} (hn : n < 2 ^ 64)
    (hcls : cls < 2 ^ 3) (hconf : conf < 2 ^ 4) (hleft : left < 2 ^ 11) (hright : right < 2 ^ 11)
    (hupper : upper < 2 ^ 8) (hlower : lower < 2 ^ 8) (hdist : dist < 2 ^ 11) :
    n = id * 2 ^ 56 + cls * 2 ^ 53 + conf * 2 ^ 49 + left * 2 ^ 38 + right * 2 ^ 27 + upper * 2 ^ 19 + lower * 2 ^ 11
      + dist
    ↔ n / 2 ^ 56 % 2 ^ 8 = id ∧ n / 2 ^ 53 % 2 ^ 3 = cls ∧ n / 2 ^ 49 % 2 ^ 4 = conf ∧ n / 2 ^ 38 % 2 ^ 11 = left
      ∧ n / 2 ^ 27 % 2 ^ 11 = right ∧ n / 2 ^ 19 % 2 ^ 8 = upper ∧ n / 2 ^ 11 % 2 ^ 8 = lower
      ∧ n / 2 ^ 0 % 2 ^ 11 = dist := by
  have horner : id * 2 ^ 56 + cls * 2 ^ 53 + conf * 2 ^ 49 + left * 2 ^ 38 + right * 2 ^ 27 + upper * 2 ^ 19
        + lower * 2 ^ 11 + dist
      = ((((((id * 2 ^ 3 + cls) * 2 ^ 4 + conf) * 2 ^ 11 + left) * 2 ^ 11 + right) * 2 ^ 8 + upper) * 2 ^ 8 + lower)
        * 2 ^ 11 + dist := by ring
  have top : n / 2 ^ 56 % 2 ^ 8 = n / 2 ^ 56 := Nat.mod_eq_of_lt (by omega)
  rw [horner, eq_mul_add_iff hdist, eq_mul_add_iff hlower, eq_mul_add_iff hupper, eq_mul_add_iff hright,
    eq_mul_add_iff hleft, eq_mul_add_iff hconf, eq_mul_add_iff hcls, top]
  simp only [Nat.div_div_eq_div_mul, ← Nat.pow_add, Nat.reduceAdd, Nat.pow_zero, Nat.div_one, and_assoc]

/-- For a report in its ranges, the digits that say it are those of its number. -/
theorem saidReport_iff_number {r : Report} (h : ReportInRange r) (w : BitVec 64) :
    (w.extractLsb' 53 3).toNat = (classNo r.cls).val ∧ saidReport w r.cls = r ↔ w.toNat = reportNumber r := by
  rw [saidReport_eq_iff h]
  obtain ⟨hl, hlr, hr, hu, hu', hc, hlow, hd⟩ := h
  have low : -128 ≤ r.lower.getD (-128) ∧ r.lower.getD (-128) ≤ 100 := by
    cases hlower : r.lower with
    | none => decide
    | some y =>
      obtain ⟨above, below⟩ := hlow y hlower
      exact ⟨le_trans (by decide) above, below.trans hu'⟩
  have dist : r.distance.getD 2047 < 2 ^ 11 := by
    cases hdist : r.distance with
    | none => decide
    | some d => exact (hd d hdist).trans_lt (by decide)
  have hcls : (classNo r.cls).val < 2 ^ 3 := (classNo r.cls).isLt.trans (by decide)
  rw [← BitVec.toNat_inj, toInt_eq_iff (by decide) _ (x := r.left) (by omega) (by omega),
    toInt_eq_iff (by decide) _ (x := r.right) (by omega) (by omega),
    toInt_eq_iff (by decide) _ (x := r.upper) (by omega) (by omega),
    toInt_eq_iff (by decide) _ (x := r.lower.getD (-128)) (by omega) (by omega)]
  simp only [extractLsb'_eq_div_mod]
  rw [reportNumber, and_left_comm]
  exact (reportDigits_iff w.isLt hcls (by omega) (by omega) (by omega) (by omega) (by omega) dist).symm

/-! ## Taking one report (R27) -/

/-- A report is a duplicate just where one of its id and class stands in the buffer (R27). -/
theorem inBuffer_iff (r : Report) (buffer : List Report) :
    inBuffer r buffer = true ↔ ∃ b ∈ buffer, b.id = r.id ∧ b.cls = r.cls := by
  simp only [inBuffer, List.any_eq_true, Bool.and_eq_true, decide_eq_true_eq]

/-- An invalid report is only counted (R24). -/
theorem takeReport_invalid (sa : Sa) :
    takeReport sa none = { sa with stats := bumpAt Stat.reportsInvalid sa.stats } := rfl

/-- A duplicate is only counted (R27). -/
theorem takeReport_duplicate {sa : Sa} {p : SceneProgress} {r : Report} (h : sa.progress = some p)
    (dup : ∃ b ∈ sa.buffer, b.id = r.id ∧ b.cls = r.cls) :
    takeReport sa (some r) = { sa with stats := bumpAt Stat.reportsDuplicate sa.stats } := by
  simp only [takeReport, h, if_pos ((inBuffer_iff r sa.buffer).mpr dup)]

/-- A new report that finds room is kept at the end of the buffer (R27). -/
theorem takeReport_kept {sa : Sa} {p : SceneProgress} {r : Report} (h : sa.progress = some p)
    (new : ¬∃ b ∈ sa.buffer, b.id = r.id ∧ b.cls = r.cls) (room : sa.buffer.length < 32) :
    takeReport sa (some r)
      = { sa with buffer := sa.buffer ++ [r], progress := some { p with kept := p.kept + 1 } } := by
  simp only [takeReport, h, if_neg (mt (inBuffer_iff r sa.buffer).mp new),
    if_pos (show sa.buffer.length < bufferCapacity from room)]

/-- A new report that finds the buffer full is dropped, and the scene truncated (R27). -/
theorem takeReport_overflow {sa : Sa} {p : SceneProgress} {r : Report} (h : sa.progress = some p)
    (new : ¬∃ b ∈ sa.buffer, b.id = r.id ∧ b.cls = r.cls) (full : 32 ≤ sa.buffer.length) :
    takeReport sa (some r)
      = { sa with
          progress := some { p with overflow := p.overflow + 1, truncated := true }
          stats := bumpAt Stat.reportsOverflow sa.stats } := by
  simp only [takeReport, h, if_neg (mt (inBuffer_iff r sa.buffer).mp new),
    if_neg (show ¬sa.buffer.length < bufferCapacity from Nat.not_lt.mpr full)]

/-- Settles O21: a report's fields are the digits of its number, and each branch of `takeReport` is one outcome. -/
theorem reportsAreKeptDroppedOrCounted : Obligations.ReportsAreKeptDroppedOrCounted := by
  refine ⟨fun bs i r => ?valid, fun o s => ?inOrder, fun sa p r h => ?taken⟩
  case valid =>
    rw [parseReport_eq_some, ← u64_toNat]
    exact and_congr_right fun inRange => saidReport_iff_number inRange _
  case inOrder => rw [takeReports]
  case taken => exact ⟨takeReport_invalid sa, takeReport_duplicate h, takeReport_kept h, takeReport_overflow h⟩

end Sys2Proof.Machine

/-! Pass 2 of the association: which entry a report left by pass 1 is matched to, and what the match leaves (R44 with
R42 and R43), and the statement about it. -/

namespace Sys2Proof.Machine

/-! ## The first largest of a sorted list -/

/-- The fold that keeps the better element chooses none just from an empty list. -/
theorem foldl_pickFirst_eq_none_iff {α : Type} (key : α → Int) (l : List α) :
    l.foldl (pickFirst key) none = none ↔ l = [] := by
  obtain ⟨none_iff, -⟩ := foldl_pickFirst key l none
  exact none_iff.trans (and_iff_right rfl)

/-- In a list sorted by `R`, the fold chooses an element of the list that every other one falls short of, or equals and
comes after. -/
theorem foldl_pickFirst_sorted {α : Type} {R : α → α → Prop} {key : α → Int} {l : List α} {m : α}
    (sorted : l.Pairwise R) (h : l.foldl (pickFirst key) none = some m) :
    m ∈ l ∧ ∀ y ∈ l, key y < key m ∨ (key y = key m ∧ (y = m ∨ R m y)) := by
  obtain ⟨-, chosen⟩ := foldl_pickFirst key l none
  obtain ⟨noStart, -⟩ | ⟨before, after, rfl, less, notMore, -⟩ := chosen m h
  · cases noStart
  · have later : ∀ y ∈ after, R m y := (List.pairwise_cons.mp (List.pairwise_append.mp sorted).2.1).1
    refine ⟨by simp, fun y hy => ?_⟩
    rw [List.mem_append, List.mem_cons] at hy
    obtain inBefore | rfl | inAfter := hy
    · exact .inl (less y inBefore)
    · exact .inr ⟨rfl, .inl rfl⟩
    · exact (notMore y inAfter).lt_or_eq.imp_right fun same => ⟨same, .inr (later y inAfter)⟩

/-! ## The candidates of pass 2 (R44) -/

/-- Entry `n` holds the track `t`, a candidate of pass 2 that qualifies for the report (R44). -/
def Qualified (r : AssocRules) (x : Report) (a : Assoc) (n : TrackNo) (t : Track) : Prop :=
  a.tracks.get n = some t ∧ t.cls = x.cls ∧ a.matched.get n = false
    ∧ 0 < overlapWidth (policyOf r.policy x.cls).gate x t

/-- The entries that `bestOverlap` chooses among are the qualified ones, each with its overlap width. -/
theorem mem_qualifying_iff {r : AssocRules} {x : Report} {a : Assoc} {n : TrackNo} {t : Track} {w : Int} :
    (n, t, w) ∈ allTracks.filterMap (qualifies r x a)
      ↔ Qualified r x a n t ∧ w = overlapWidth (policyOf r.policy x.cls).gate x t := by
  simp only [List.mem_filterMap, qualifies_iff, Qualified]
  constructor
  · rintro ⟨_, -, rfl, held, cls, free, rfl, wide⟩
    exact ⟨⟨held, cls, free, wide⟩, rfl⟩
  · rintro ⟨⟨held, cls, free, wide⟩, rfl⟩
    exact ⟨n, List.mem_finRange n, rfl, held, cls, free, rfl, wide⟩

/-- They stand in rising order of their numbers. -/
theorem qualifying_sorted (r : AssocRules) (x : Report) (a : Assoc) :
    (allTracks.filterMap (qualifies r x a)).Pairwise fun c d => c.1 < d.1 := by
  refine finRange_sorted.filterMap _ fun i j lt c hc d hd => ?_
  rw [((qualifies_iff r x a i c).mp hc).1, ((qualifies_iff r x a j d).mp hd).1]
  exact lt

/-- The choice of pass 2 is the fold that keeps the wider entry. -/
theorem bestOverlap_eq (r : AssocRules) (x : Report) (a : Assoc) :
    bestOverlap r x a = (allTracks.filterMap (qualifies r x a)).foldl (pickFirst fun c => c.2.2) none := by
  rw [bestOverlap]
  congr 1
  funext best c
  cases best with
  | none => rfl
  | some b => rfl

/-- No entry is chosen just where none qualifies (R44). -/
theorem bestOverlap_eq_none_iff (r : AssocRules) (x : Report) (a : Assoc) :
    bestOverlap r x a = none ↔ ∀ n t, ¬Qualified r x a n t := by
  rw [bestOverlap_eq, foldl_pickFirst_eq_none_iff, List.eq_nil_iff_forall_not_mem]
  constructor
  · exact fun none n t qualified => none _ (mem_qualifying_iff.mpr ⟨qualified, rfl⟩)
  · exact fun none c mem => none c.1 c.2.1 (mem_qualifying_iff.mp mem).1

/-- The entry chosen qualifies, and every other one is narrower, or as wide and of a higher number (R44). -/
theorem bestOverlap_spec {r : AssocRules} {x : Report} {a : Assoc} {n : TrackNo} {t : Track} {w : Int}
    (h : bestOverlap r x a = some (n, t, w)) :
    let width := overlapWidth (policyOf r.policy x.cls).gate x
    Qualified r x a n t ∧ w = width t
      ∧ ∀ m u, Qualified r x a m u → width u < width t ∨ (width u = width t ∧ n ≤ m) := by
  rw [bestOverlap_eq] at h
  obtain ⟨mem, widest⟩ := foldl_pickFirst_sorted (qualifying_sorted r x a) h
  obtain ⟨qualified, rfl⟩ := mem_qualifying_iff.mp mem
  refine ⟨qualified, rfl, fun m u other => ?_⟩
  refine (widest _ (mem_qualifying_iff.mpr ⟨other, rfl⟩)).imp_right (And.imp_right fun place => ?_)
  obtain same | later := place
  · exact (congrArg Prod.fst same).ge
  · exact le_of_lt later

/-! ## The effect of a match (R42, R43) and of pass 2 (R44) -/

/-- A report wholly outside the lamp field frees the track it is matched to (R43). -/
theorem matchEntry_outside {r : AssocRules} {x : Report} (n : TrackNo) (t : Track) (a : Assoc)
    (outside : whollyOutside r.segMap x.left x.right = true) :
    matchEntry r n t x a = countAssoc Stat.trkExits (freeEntry n a) := by
  rw [matchEntry, if_pos outside]

/-- Any other report updates the track and marks it matched (R42). -/
theorem matchEntry_inside {r : AssocRules} {x : Report} (n : TrackNo) (t : Track) (a : Assoc)
    (inside : whollyOutside r.segMap x.left x.right = false) :
    matchEntry r n t x a = { a with
      tracks := a.tracks.set n (some (matchedTrack r.scene x t)), matched := a.matched.set n true } := by
  rw [matchEntry, if_neg (Bool.eq_false_iff.mp inside)]

/-- A report for which no entry is chosen is left for pass 3 (R44). -/
theorem passTwo_left {r : AssocRules} {x : Report} {a : Assoc} (h : bestOverlap r x a = none) (left : List Report) :
    passTwo r (left, a) x = (left ++ [x], a) := by
  simp only [passTwo, h]

/-- A report for which an entry is chosen is matched to it and counted (R44). -/
theorem passTwo_matched {r : AssocRules} {x : Report} {a : Assoc} {n : TrackNo} {t : Track} {w : Int}
    (h : bestOverlap r x a = some (n, t, w)) (left : List Report) :
    passTwo r (left, a) x = (left, countAssoc Stat.trkOverlapMatches (matchEntry r n t x a)) := by
  simp only [passTwo, h]

/-- Settles O26: `bestOverlap` keeps the first widest of the qualified entries, which are listed in rising order, and
`passTwo` matches the one it chose. -/
theorem overlapMatchIsWidestThenLowest : Obligations.OverlapMatchIsWidestThenLowest := by
  refine fun r x a => ⟨bestOverlap_eq_none_iff r x a, passTwo_left, fun n t w chosen => ?_⟩
  obtain ⟨qualified, width, best⟩ := bestOverlap_spec chosen
  refine ⟨qualified, width, best, fun left => ⟨fun outside => ?exits, fun inside => ?updated⟩⟩
  case exits => rw [passTwo_matched chosen, matchEntry_outside n t a outside, countAssoc, countAssoc, freeEntry]
  case updated => rw [passTwo_matched chosen, matchEntry_inside n t a inside, countAssoc, matchedTrack]

end Sys2Proof.Machine

/-! The start of a build: what the commit it takes and the reports that follow leave, the inputs it works by, and the
statement about build triggers (R61, R63 to R65). -/

namespace Sys2Proof.Machine

/-! ## Taking a pending commit (R64) -/

/-- The part once PB and MU have taken a pending commit, before any block is told of its tables (R64). -/
def afterCommit (s : State) : State :=
  if s.mu.commitPending then
    { s with
      mu := { s.mu with tables := overlay s.mu.staged s.mu.tables, staged := emptyStaging, commitPending := false }
      pb := { s.pb with stats := bumpAt Stat.pbCommitsTaken s.pb.stats } }
  else s

/-- With no commit pending nothing is taken. -/
theorem afterCommit_none {s : State} (h : s.mu.commitPending = false) : afterCommit s = s :=
  if_neg (Bool.eq_false_iff.mp h)

/-- A pending commit makes the staged tables live. -/
theorem afterCommit_pending {s : State} (h : s.mu.commitPending = true) : afterCommit s = { s with
    mu := { s.mu with tables := overlay s.mu.staged s.mu.tables, staged := emptyStaging, commitPending := false }
    pb := { s.pb with stats := bumpAt Stat.pbCommitsTaken s.pb.stats } } :=
  if_pos h

/-- A build start with no commit pending takes none (R64). -/
theorem takeCommit_none {s : State} (h : s.mu.commitPending = false) : takeCommit s = s :=
  if_neg (Bool.eq_false_iff.mp h)

/-- Telling the other blocks adds only reports and messages. -/
theorem takeCommit_onlyReports (s : State) : OnlyReports (afterCommit s) (takeCommit s) := by
  cases h : s.mu.commitPending with
  | false =>
    rw [afterCommit_none h, takeCommit_none h]
    exact OnlyReports.refl s
  | true =>
    rw [afterCommit_pending h]
    exact (takeCommit_pending s h).1

/-! ## Starting a build (R63, R65) -/

/-- Reports and messages leave the clock, MU and PB alone. -/
theorem OnlyReports.keeps {s t : State} (h : OnlyReports s t) : t.now = s.now ∧ t.mu = s.mu ∧ t.pb = s.pb := by
  unfold OnlyReports at h
  rw [h]
  exact ⟨rfl, rfl, rfl⟩

/-- Reports and messages change no input of a build: a build reads the Module records of a link, not what the link last
sent CM. -/
theorem OnlyReports.inputs_eq {s t : State} (h : OnlyReports s t) :
    inputsOf t.vsb t.tu t.links t.cm t.mu t.pb = inputsOf s.vsb s.tu s.links s.cm s.mu s.pb := by
  unfold OnlyReports at h
  rw [h]
  rfl

/-- MU after the start of a build is MU with the commit taken (R64). -/
theorem buildStart_mu (s : State) : (buildStart s).mu = (afterCommit s).mu := by
  obtain ⟨-, mu, -⟩ := (takeCommit_onlyReports s).keeps
  exact mu

/-- PB after the start of a build: the inputs are those of the part with the commit taken, and the refresh timer runs
the build period of its tables (R63 to R65). -/
theorem buildStart_pb (s : State) :
    let u := afterCommit s
    (buildStart s).pb = pbStarted u.pb (inputsOf u.vsb u.tu u.links u.cm u.mu u.pb)
      (timerIn u u.mu.tables.link.buildPeriod) := by
  have reports := takeCommit_onlyReports s
  obtain ⟨now, mu, pb⟩ := reports.keeps
  have started : (buildStart s).pb = pbStarted (takeCommit s).pb
      (inputsOf (takeCommit s).vsb (takeCommit s).tu (takeCommit s).links (takeCommit s).cm (takeCommit s).mu
        (takeCommit s).pb)
      (startTimer (takeCommit s).now (takeCommit s).mu.tables.link.buildPeriod) := rfl
  rw [started, reports.inputs_eq, now, mu, pb, startTimer_eq]

/-- The start of a build with no commit pending changes PB alone. -/
theorem buildStart_uncommitted {s : State} (h : s.mu.commitPending = false) :
    buildStart s = { s with
      pb := pbStarted s.pb (inputsOf s.vsb s.tu s.links s.cm s.mu s.pb) (timerIn s s.mu.tables.link.buildPeriod) } := by
  simp only [buildStart, takeCommit_none h, startTimer_eq]

/-! ## Build triggers (R61) -/

/-- A trigger that finds a build in flight is merged (R61). -/
theorem trigger_merges {s : State} (h : s.pb.build ≠ none) : trigger s = { s with
    pb := { s.pb with rebuild := true, stats := bumpAt Stat.pbTriggersMerged s.pb.stats } } := by
  obtain ⟨b, hb⟩ := Option.ne_none_iff_exists'.mp h
  simp only [trigger, hb]

/-- PB may change further within what a build trigger may change. -/
theorem OnlyBuild.withPb {s t : State} (h : OnlyBuild s t) (pb : Pb) : OnlyBuild s { t with pb := pb } := by
  unfold OnlyBuild at *
  rw [h]
  rfl

/-- So may the reports and messages. -/
theorem OnlyBuild.withReports {s t u : State} (h : OnlyBuild s t) (reports : OnlyReports t u) : OnlyBuild s u := by
  unfold OnlyBuild OnlyReports at *
  rw [reports, h]
  simp [buildMail, buildMu]

/-- The commit itself changes PB's count and the tables. -/
theorem afterCommit_onlyBuild (s : State) : OnlyBuild s (afterCommit s) := by
  unfold afterCommit
  split <;> rfl

/-- The start of a build changes no more than a build trigger may (R64, R65). -/
theorem buildStart_onlyBuild (s : State) : OnlyBuild s (buildStart s) :=
  ((afterCommit_onlyBuild s).withReports (takeCommit_onlyReports s)).withPb _

/-- Nor does a trigger that is merged (R61). -/
theorem trigger_onlyBuild (s : State) : OnlyBuild s (trigger s) := by
  by_cases h : s.pb.build = none
  · rw [trigger_start s h]
    exact buildStart_onlyBuild s
  · rw [trigger_merges h]
    rfl

/-- What a build takes of a slot is a view of its Module record (R65). -/
theorem inputsOf_modules (v : Vsb) (tu : Tu) (links : Both Slc) (cm : Cm) (mu : Mu) (pb : Pb) (l : Link) (k : Slot) :
    ((inputsOf v tu links cm mu pb).modules.get l).get k = moduleView ((links.get l).modules.get k) := by
  cases l <;> exact Row.get_map moduleView _ k

/-- Settles O30: a trigger merges or starts a build, and a build starts on the part with the commit taken. -/
theorem buildTriggerStartsOrMerges : Obligations.BuildTriggerStartsOrMerges := by
  intro s
  refine ⟨trigger_merges, fun idle uncommitted => ?plain, fun idle pending => ?commit, trigger_onlyBuild s,
    fun v tu links cm mu pb => ?inputs⟩
  case plain =>
    rw [trigger_start s idle, buildStart_uncommitted uncommitted]
    rfl
  case commit =>
    obtain ⟨-, vehicle, policy, condition⟩ := takeCommit_pending s pending
    rw [trigger_start s idle]
    refine ⟨?_, ?_, vehicle, policy, condition⟩
    · rw [buildStart_mu, afterCommit_pending pending]
    · rw [buildStart_pb, afterCommit_pending pending]
      rfl
  case inputs =>
    exact ⟨rfl, rfl, rfl, rfl, rfl, rfl, rfl, inputsOf_modules v tu links cm mu pb, rfl, rfl, rfl, rfl, rfl, rfl, rfl,
      rfl, rfl⟩

end Sys2Proof.Machine

/-! Base, swivel, column and row shift, and the ramp: what stages 2 to 4 and 8 of a build compute, and the statement
about them (R70 to R78, R92). -/

namespace Sys2Proof.Machine

/-! ## Rounding and clamping -/

/-- A multiple of the divisor is divided without rounding. -/
theorem roundDiv_mul (v : Int) {d : Nat} (hd : 0 < d) : roundDiv (v * d) d = v := by
  have exact (n : Nat) : (2 * (n * d) + d) / (2 * d) = n := by
    have rearranged : 2 * (n * d) + d = d + 2 * d * n := by ring
    rw [rearranged, Nat.add_mul_div_left _ _ (by omega), Nat.div_eq_of_lt (by omega), Nat.zero_add]
  by_cases nonneg : 0 ≤ v
  · obtain ⟨n, rfl⟩ := Int.eq_ofNat_of_zero_le nonneg
    have cast : (n * d : Int).toNat = n * d := by rw [← Nat.cast_mul, Int.toNat_natCast]
    rw [roundDiv, if_pos (by positivity), cast, exact]
  · obtain ⟨n, rfl⟩ := Int.exists_eq_neg_ofNat (not_le.mp nonneg).le
    have cast : (-(-n * d : Int)).toNat = n * d := by rw [neg_mul, neg_neg, ← Nat.cast_mul, Int.toNat_natCast]
    have negative : (-n * d : Int) < 0 := mul_neg_of_neg_of_pos (not_le.mp nonneg) (Int.natCast_pos.mpr hd)
    rw [roundDiv, if_neg (not_le.mpr negative), cast, exact]

/-- A clamp is the larger of the low end and the smaller of the high end and the value. -/
theorem clamp_eq {lo hi : Int} (h : lo ≤ hi) (x : Int) : clamp lo hi x = max lo (min hi x) := by
  unfold clamp
  split_ifs <;> omega

/-! ## The swivel's step (R75) -/

/-- A target within one step is reached (R75). -/
theorem moveSwivel_reaches {step : Nat} {current target : Int} (near : |target - current| ≤ step) :
    moveSwivel step current target = target :=
  if_pos near

/-- A target more than one step above moves the swivel one step up (R75). -/
theorem moveSwivel_up {step : Nat} {current target : Int} (above : step < target - current) :
    moveSwivel step current target = current + step := by
  have far : ¬|target - current| ≤ step := fun near => by
    have := le_abs_self (target - current)
    omega
  rw [moveSwivel, if_neg far, if_pos (by omega)]

/-- A target more than one step below moves the swivel one step down (R75). -/
theorem moveSwivel_down {step : Nat} {current target : Int} (below : step < current - target) :
    moveSwivel step current target = current - step := by
  have far : ¬|target - current| ≤ step := fun near => by
    have := neg_le_abs (target - current)
    omega
  rw [moveSwivel, if_neg far, if_neg (by omega)]

/-! ## The ramp (R92) and the limits after it (R93 to R97) -/

/-- A level more than the up step above the previous one rises by that step (R92). -/
theorem ramp_up {up down previous level : Nat} (above : previous + up < level) :
    ramp up down previous level = previous + up :=
  if_pos above

/-- A level more than the down step below the previous one falls by that step (R92). -/
theorem ramp_down {up down previous level : Nat} (below : level + down < previous) :
    ramp up down previous level = previous - down := by
  rw [ramp, if_neg (by omega), if_pos below]

/-- A level between the two is reached (R92). -/
theorem ramp_between {up down previous level : Nat} (low : level ≤ previous + up) (high : previous ≤ level + down) :
    ramp up down previous level = level := by
  rw [ramp, if_neg (by omega), if_neg (by omega)]

/-- The ramp never rises by more than the up step (R92). -/
theorem ramp_le (up down previous level : Nat) : ramp up down previous level ≤ previous + up := by
  unfold ramp
  split_ifs <;> omega

/-- The limit of the mode never raises a level (R94). -/
theorem modeLimit_le (m : Mode) (high : Bool) (level : Nat) : modeLimit m high level ≤ level := by
  cases m <;> cases high <;> simp [modeLimit]

/-- The limit of the action level never raises a level (R95). -/
theorem dimLimit_le (a : Action) (dim : Nat) (high : Bool) (level : Nat) : dimLimit a dim high level ≤ level := by
  unfold dimLimit
  split_ifs <;> omega

/-- The hard limits never raise a level (R93 to R96). -/
theorem hardLimits_le (b : BuildInputs) (p : Plan) (l : Link) (i : SegNo) (level : Nat) :
    hardLimits b p l i level ≤ level := by
  unfold hardLimits
  split_ifs
  · exact Nat.zero_le level
  · exact ((dimLimit_le _ _ _ _).trans (modeLimit_le _ _ _)).trans (shade_le _ _ _ _)

/-- The final levels, segment by segment (R97). -/
theorem finalLevels_get (b : BuildInputs) (p : Plan) (l : Link) (i : SegNo) :
    ((finalLevels b p).get l).get i = hardLimits b p l i (rampedLevel b p l i) := by
  cases l <;> exact Row.get_tabulate _ i

/-- No final level rises by more than the up step (R92, R97). -/
theorem finalLevels_le (b : BuildInputs) (p : Plan) (l : Link) (i : SegNo) :
    ((finalLevels b p).get l).get i ≤ (b.previous.get l).get i + b.tables.build.upStep := by
  rw [finalLevels_get]
  exact (hardLimits_le b p l i _).trans (ramp_le _ _ _ _)

/-! ## Modes without swivel and row shift (R74, R77) -/

/-- The plain modes are OFF and FALLBACK. -/
theorem plainMode_iff (m : Mode) : plainMode m = true ↔ m = .off ∨ m = .fallback := by
  rw [plainMode, Bool.or_eq_true, decide_eq_true_iff, decide_eq_true_iff]

/-- A fresh reading counts in any other mode. -/
theorem counts_of_fresh {m : Mode} (on : m ≠ .off) (normal : m ≠ .fallback) : (true && !plainMode m) = true := by
  rw [Bool.true_and, Bool.not_eq_true', Bool.eq_false_iff, Ne, plainMode_iff]
  exact not_or.mpr ⟨on, normal⟩

/-- A STALE reading counts in no mode, and none counts in a plain mode. -/
theorem not_counts {fresh : Bool} {m : Mode} (h : fresh = false ∨ m = .off ∨ m = .fallback) :
    (fresh && !plainMode m) = false := by
  rw [← plainMode_iff] at h
  obtain rfl | plain := h
  · rfl
  · rw [plain, Bool.not_true, Bool.and_false]

/-! ## The target swivel (R73, R74) -/

/-- The value between two points of a curve, the whole quotient rounded once (R74). -/
def chord (a : Int) (x y : Int × Int) : Int :=
  roundDiv (x.2 * (y.1 - x.1) + (y.2 - x.2) * (a - x.1)) (y.1 - x.1).toNat

/-- At the first point it is that point's value. -/
theorem chord_first {x y : Int × Int} (h : x.1 < y.1) : chord x.1 x y = x.2 := by
  have width : ((y.1 - x.1).toNat : Int) = y.1 - x.1 := Int.toNat_of_nonneg (by omega)
  have quotient := roundDiv_mul x.2 (d := (y.1 - x.1).toNat) (by omega)
  rw [chord, sub_self, mul_zero, add_zero]
  rwa [width] at quotient

/-- At the second point it is that point's value. -/
theorem chord_second {x y : Int × Int} (h : x.1 < y.1) : chord y.1 x y = y.2 := by
  have width : ((y.1 - x.1).toNat : Int) = y.1 - x.1 := Int.toNat_of_nonneg (by omega)
  have quotient := roundDiv_mul y.2 (d := (y.1 - x.1).toNat) (by omega)
  have whole : x.2 * (y.1 - x.1) + (y.2 - x.2) * (y.1 - x.1) = y.2 * (y.1 - x.1) := by ring
  rw [chord, whole]
  rwa [width] at quotient

/-- At or below its first point a curve has that point's value (R74). -/
theorem alongPoints_head {a : Int} {x : Int × Int} (h : a ≤ x.1) (ps : List (Int × Int)) :
    alongPoints a (x :: ps) = x.2 := by
  cases ps with
  | nil => rfl
  | cons y ps => rw [alongPoints, if_pos h]

/-- At or below the point it begins with a curve has that point's value (R74). -/
theorem alongPoints_first {a : Int} {ps : List (Int × Int)} (hk : 0 < ps.length) (h : a ≤ ps[0].1) :
    alongPoints a ps = ps[0].2 :=
  match ps with
  | [] => absurd hk (Nat.lt_irrefl 0)
  | _ :: rest => alongPoints_head h rest

/-- Between its first two points a curve has the value of their chord (R74). -/
theorem alongPoints_chord {a : Int} {x y : Int × Int} (rises : x.1 < y.1) (above : x.1 ≤ a) (below : a ≤ y.1)
    (ps : List (Int × Int)) : alongPoints a (x :: y :: ps) = chord a x y := by
  obtain rfl | past := above.eq_or_lt
  · rw [alongPoints_head le_rfl, chord_first rises]
  · rw [alongPoints, if_neg (not_le.mpr past), interpolate, if_pos below, chord]

/-- From its second point on a curve is the curve that begins there (R74). -/
theorem alongPoints_tail {a : Int} {x y : Int × Int} (rises : x.1 < y.1) (above : y.1 ≤ a) (ps : List (Int × Int)) :
    alongPoints a (x :: y :: ps) = alongPoints a (y :: ps) := by
  obtain rfl | past := above.eq_or_lt
  · rw [alongPoints_chord rises rises.le le_rfl, chord_second rises, alongPoints_head le_rfl]
  · rw [alongPoints, if_neg (by omega), interpolate, if_neg (not_le.mpr past)]

/-- The first point of a rising curve is its lowest. -/
theorem first_le_of_rises {x : Int × Int} {ps : List (Int × Int)}
    (rises : (x :: ps).Pairwise fun x y => x.1 < y.1) {z : Int × Int} (mem : z ∈ x :: ps) : x.1 ≤ z.1 := by
  obtain ⟨later, -⟩ := List.pairwise_cons.mp rises
  obtain rfl | mem := List.mem_cons.mp mem
  · exact le_rfl
  · exact (later z mem).le

/-- Between two neighbouring points a rising curve has the value of their chord (R74). -/
theorem alongPoints_between {a : Int} {ps : List (Int × Int)} (rises : ps.Pairwise fun x y => x.1 < y.1) {k : Nat}
    (hk : k + 1 < ps.length) (above : ps[k].1 ≤ a) (below : a ≤ ps[k + 1].1) :
    alongPoints a ps = chord a ps[k] ps[k + 1] := by
  induction ps generalizing k with
  | nil => exact absurd hk (Nat.not_lt_zero _)
  | cons x ps ih =>
    obtain ⟨first, rest⟩ := List.pairwise_cons.mp rises
    match ps, k with
    | [], _ => exact absurd (Nat.lt_of_succ_lt_succ hk) (Nat.not_lt_zero _)
    | y :: ps, 0 => exact alongPoints_chord (first y List.mem_cons_self) above below ps
    | y :: ps, k + 1 =>
      have reached : y.1 ≤ a := (first_le_of_rises rest (List.getElem_mem _)).trans above
      rw [alongPoints_tail (first y List.mem_cons_self) reached]
      exact ih rest (Nat.lt_of_succ_lt_succ hk) above below

/-- At or past its last point a rising curve has that point's value (R74). -/
theorem alongPoints_last {a : Int} {ps : List (Int × Int)} (rises : ps.Pairwise fun x y => x.1 < y.1) {k : Nat}
    (hk : k < ps.length) (last : k + 1 = ps.length) (above : ps[k].1 ≤ a) : alongPoints a ps = ps[k].2 := by
  induction ps generalizing k with
  | nil => exact absurd hk (Nat.not_lt_zero _)
  | cons x ps ih =>
    obtain ⟨first, rest⟩ := List.pairwise_cons.mp rises
    match ps, k with
    | [], 0 => rfl
    | [], k + 1 => exact absurd (Nat.lt_of_succ_lt_succ hk) (Nat.not_lt_zero _)
    | y :: ps, 0 => exact absurd last (by simp)
    | y :: ps, k + 1 =>
      have reached : y.1 ≤ a := (first_le_of_rises rest (List.getElem_mem _)).trans above
      rw [alongPoints_tail (first y List.mem_cons_self) reached]
      exact ih rest (Nat.lt_of_succ_lt_succ hk) (Nat.succ.inj last) above

/-- The points of one band's curve with their values (R73). -/
def curvePoints (t : CurveTable) (band : Fin 8) : List (Int × Int) :=
  (steeringPoints t).zip (t.bands.get band).values.cells

/-- A curve has nine points. -/
theorem curvePoints_length (t : CurveTable) (band : Fin 8) : (curvePoints t band).length = 9 := by
  rw [curvePoints, List.length_zip, (t.bands.get band).values.size]
  rfl

/-- Each is a steering point with the band's value for it. -/
theorem curvePoints_getElem (t : CurveTable) (band : Fin 8) {k : Nat} (hk : k < (curvePoints t band).length) :
    (curvePoints t band)[k] = ((steeringPoints t).getD k 0, (t.bands.get band).values.cells.getD k 0) := by
  have inPoints : k < (steeringPoints t).length := by rwa [curvePoints_length] at hk
  have inValues : k < (t.bands.get band).values.cells.length := by
    rwa [curvePoints_length, ← (t.bands.get band).values.size] at hk
  rw [List.getD_eq_getElem _ _ inPoints, List.getD_eq_getElem _ _ inValues]
  exact List.getElem_zip

/-- Rising breakpoints make the curve rise (R73). -/
theorem curvePoints_rise {t : CurveTable} (h1 : 0 < t.b1) (h2 : t.b1 < t.b2) (h3 : t.b2 < t.b3) (h4 : t.b3 < t.b4)
    (band : Fin 8) : (curvePoints t band).Pairwise fun x y => x.1 < y.1 := by
  have points : (curvePoints t band).map Prod.fst = steeringPoints t :=
    List.map_fst_zip (by rw [(t.bands.get band).values.size]; exact le_rfl)
  rw [← List.pairwise_map (f := Prod.fst) (R := fun x y => x < y), points]
  simp only [steeringPoints, List.pairwise_cons, List.mem_cons, List.not_mem_nil, or_false, forall_eq_or_imp,
    forall_eq, IsEmpty.forall_iff, implies_true, List.Pairwise.nil, and_true]
  omega

/-- A curve with rising breakpoints: its end values outside, the chord between two neighbouring points (R74). -/
theorem alongPoints_curve {t : CurveTable} (h1 : 0 < t.b1) (h2 : t.b1 < t.b2) (h3 : t.b2 < t.b3) (h4 : t.b3 < t.b4)
    (band : Fin 8) (a : Int) :
    let point (k : Nat) := (steeringPoints t).getD k 0
    let value (k : Nat) := (t.bands.get band).values.cells.getD k 0
    (a ≤ point 0 → alongPoints a (curvePoints t band) = value 0)
    ∧ (point 8 ≤ a → alongPoints a (curvePoints t band) = value 8)
    ∧ ∀ k < 8, point k ≤ a → a ≤ point (k + 1) →
      alongPoints a (curvePoints t band) = chord a (point k, value k) (point (k + 1), value (k + 1)) := by
  have rises := curvePoints_rise h1 h2 h3 h4 band
  have nine := curvePoints_length t band
  have get := fun k (hk : k < (curvePoints t band).length) => curvePoints_getElem t band hk
  generalize curvePoints t band = ps at rises nine get
  refine ⟨fun low => ?_, fun high => ?_, fun k hk above below => ?_⟩
  · rw [alongPoints_first (by omega) (by rwa [get]), get]
  · rw [alongPoints_last (k := 8) rises (by omega) nine.symm (by rwa [get]), get]
  · rw [alongPoints_between (k := k) rises (by omega) (by rwa [get]) (by rwa [get]), get, get]

/-- The band of a speed is the first whose bound it does not pass, or the last (R73). -/
theorem bandOf_eq {bands : Row 8 CurveBand} {v : Nat} {band : Fin 8}
    (here : v ≤ (bands.get band).bound ∨ (band = 7 ∧ ∀ j, (bands.get j).bound < v))
    (before : ∀ j < band, (bands.get j).bound < v) : bandOf bands v = band := by
  obtain within | ⟨rfl, past⟩ := here
  · have first : (List.finRange 8).find? (fun i => decide (v ≤ (bands.get i).bound)) = some band := by
      rw [List.find?_eq_some_iff_getElem]
      refine ⟨decide_eq_true within, band.val, by simp, by simp, fun j hj => ?_⟩
      simpa using before ⟨j, hj.trans band.isLt⟩ hj
    rw [bandOf, first, Option.getD_some]
  · have noneFits : (List.finRange 8).find? (fun i => decide (v ≤ (bands.get i).bound)) = none :=
      List.find?_eq_none.mpr fun j _ => by simpa using past j
    rw [bandOf, noneFits, Option.getD_none]

/-- The band of a build's speed; an unknown speed has band 0 (R73). -/
def speedBand (b : BuildInputs) : Fin 8 :=
  if b.speed.fresh then bandOf b.tables.curve.bands (b.speed.value.getD 0) else 0

/-- The band that the statement describes is the build's. -/
theorem speedBand_eq {b : BuildInputs} {band : Fin 8} (unknown : b.speed.fresh = false → band = 0)
    (known : ∀ v, b.speed = ⟨some v, true⟩ →
      (v ≤ (b.tables.curve.bands.get band).bound ∨ (band = 7 ∧ ∀ j, (b.tables.curve.bands.get j).bound < v))
        ∧ ∀ j < band, (b.tables.curve.bands.get j).bound < v)
    (valued : b.speed.fresh = true → b.speed.value ≠ none) : speedBand b = band := by
  unfold speedBand
  cases fresh : b.speed.fresh with
  | false => exact (unknown fresh).symm
  | true =>
    obtain ⟨v, value⟩ := Option.ne_none_iff_exists'.mp (valued fresh)
    have speed : b.speed = ⟨some v, true⟩ := by rw [← value, ← fresh]
    obtain ⟨here, before⟩ := known v speed
    rw [if_pos rfl, value]
    exact bandOf_eq here before

/-- The target swivel is 0 for a STALE steering angle, OFF and FALLBACK (R74). -/
theorem targetSwivel_zero {b : BuildInputs} {m : Mode} (h : b.steer.fresh = false ∨ m = .off ∨ m = .fallback) :
    targetSwivel b m = 0 := by
  simp only [targetSwivel, not_counts h]

/-- Otherwise it is the value of the band's curve at the steering angle (R74). -/
theorem targetSwivel_curve {b : BuildInputs} {m : Mode} {a : Int} (steer : b.steer = ⟨some a, true⟩) (on : m ≠ .off)
    (normal : m ≠ .fallback) :
    targetSwivel b m = alongPoints a (curvePoints b.tables.curve (speedBand b)) := by
  simp only [targetSwivel, steer, counts_of_fresh on normal]
  rfl

/-! ## The base (R70, R72) -/

/-- The profile of a build is that of its mode's row (R70, R72). -/
theorem planOf_profile (b : BuildInputs) :
    (planOf b).profile = b.tables.profile.get (modeRow b.tables.mode (planOf b).mode).profile := rfl

/-! ## Column and row shift (R76 to R78) -/

/-- A position that lies in the profile, or that the edge rule HOLD brings to the nearest edge (R76, R78). -/
theorem shiftedIndex_eq_some {n : Nat} {edge : EdgeRule} {first last r : Fin n} {x : Int} (hfirst : first.val = 0)
    (hlast : last.val + 1 = n) (held : edge = .hold ∨ x = r.val)
    (nearest : (r.val : Int) = max 0 (min (last.val : Int) x)) :
    shiftedIndex edge first last x = some r := by
  unfold shiftedIndex
  split_ifs with left hold inside hold
  · exact congrArg some (Fin.ext (by omega))
  · have := held.resolve_left hold
    omega
  · exact congrArg some (Fin.ext (by simp only; omega))
  · exact congrArg some (Fin.ext (by omega))
  · have := held.resolve_left hold
    omega

/-- A position outside the profile is dark under the edge rule DARK (R76, R78). -/
theorem shiftedIndex_eq_none {n : Nat} {first last : Fin n} {x : Int} (outside : x < 0 ∨ (n : Int) ≤ x) :
    shiftedIndex .dark first last x = none := by
  obtain left | right := outside
  · rw [shiftedIndex, if_pos left, if_neg (by decide)]
  · rw [shiftedIndex, if_neg (by omega), dif_neg (by omega), if_neg (by decide)]

/-- A segment takes the level of the profile's position that the two shifts bring to it (R76, R78). -/
theorem levelled_eq {p : Plan} {pitch : Nat} {l : Link} {i : SegNo} {r : Fin 4} {c : Fin 24}
    (row : shiftedIndex p.profile.edge 0 3 (segRow i + p.rowShift) = some r)
    (column : shiftedIndex p.profile.edge (0 : Fin 24) 23 (segColumn i - roundDiv p.swivel pitch) = some c) :
    levelled p pitch l i = ((p.profile.levels.get l).get r).get c := by
  simp only [levelled, row, swivelled, column, profileLevel]

/-- A segment that a shift brings nothing to is dark (R76, R78). -/
theorem levelled_zero {p : Plan} {pitch : Nat} {l : Link} {i : SegNo}
    (h : shiftedIndex p.profile.edge (0 : Fin 4) 3 (segRow i + p.rowShift) = none
      ∨ shiftedIndex p.profile.edge (0 : Fin 24) 23 (segColumn i - roundDiv p.swivel pitch) = none) :
    levelled p pitch l i = 0 := by
  obtain row | column := h
  · simp only [levelled, row]
  · have dark (r : Fin 4) : swivelled p pitch l r (segColumn i) = 0 := by simp only [swivelled, column]
    simp only [levelled, dark]
    split <;> rfl

/-- The row shift is 0 for an unknown pitch, OFF and FALLBACK (R77). -/
theorem rowShiftOf_zero {b : BuildInputs} {m : Mode}
    (h : b.pitch.fresh = false ∨ b.pitch.value = none ∨ m = .off ∨ m = .fallback) : rowShiftOf b m = 0 := by
  by_cases unknown : b.pitch.value = none
  · simp only [rowShiftOf, unknown]
    cases (b.pitch.fresh && !plainMode m) <;> rfl
  · simp only [rowShiftOf, not_counts (h.imp_right fun rest => rest.resolve_left unknown)]

/-- Otherwise it is the pitch over the larger row pitch, rounded, negated and held between -1 and 1 (R77). -/
theorem rowShiftOf_pitch {b : BuildInputs} {m : Mode} {x : Int} (pitch : b.pitch = ⟨some x, true⟩) (on : m ≠ .off)
    (normal : m ≠ .fallback) : rowShiftOf b m
      = max (-1) (min 1 (-roundDiv x (max b.tables.segMap.left.rowPitch b.tables.segMap.right.rowPitch))) := by
  simp only [rowShiftOf, pitch, counts_of_fresh on normal]
  exact clamp_eq (by decide) _

/-! ## Where swivel and previous levels are kept (R66, R98, R177) -/

/-- The start of a build leaves the current swivel and the previous built levels. -/
theorem buildStart_keeps_built (s : State) :
    (buildStart s).pb.swivel = s.pb.swivel ∧ (buildStart s).pb.previous = s.pb.previous := by
  rw [buildStart_pb]
  unfold afterCommit
  split <;> exact ⟨rfl, rfl⟩

/-- A completed build leaves its swivel and its final levels (R66, R98). -/
theorem completeBuild_keeps_built (b : BuildInputs) (s : State) :
    (completeBuild b s).pb.swivel = (planOf b).swivel
      ∧ (completeBuild b s).pb.previous = finalLevels b (planOf b) := by
  unfold completeBuild
  dsimp only
  split
  · exact buildStart_keeps_built _
  · exact ⟨rfl, rfl⟩

/-- BUILD_COMPLETION outside a reset completes the build in flight. -/
theorem exec_buildCompletion {s : State} {b : BuildInputs} (h : s.inReset = false) (flight : s.pb.build = some b) :
    exec .buildCompletion s = .next (completeBuild b s) := by
  change execBuildCompletion s = _
  simp only [execBuildCompletion, running_awake h, flight]

/-- UPSTREAM_TX_COMPLETE of the reply to RESTART runs the reset (R177). -/
theorem exec_upstreamTxComplete_restart {s : State} {f : UpFrame} (h : s.inReset = false)
    (reply : s.up.tx = some ⟨.reply true, f⟩) (pending : s.mu.restartPending = true) :
    exec .upstreamTxComplete s
      = .next (restartReset (countPort Stat.upTxFrames { s with up := { s.up with tx := none } })) := by
  change execUpstreamTxComplete s = _
  simp only [execUpstreamTxComplete, running_awake h, reply, upSent, countPort_mu, pending, Bool.and_self, if_true]

/-- A reset leaves every previous built level 0 (R80). -/
theorem pbAfterReset_previous (v : Vsb) (links : Both Slc) (mu : Mu) (l : Link) (i : SegNo) :
    ((pbAfterReset v links mu).previous.get l).get i = 0 := by
  cases l <;> exact Row.get_fill 0 i

/-- Settles O33: each conjunct is the lemma on its stage. -/
theorem rampAndSwivelMoveByAtMostTheirStep : Obligations.RampAndSwivelMoveByAtMostTheirStep := by
  refine ⟨fun step current target => ⟨moveSwivel_reaches, moveSwivel_up, moveSwivel_down⟩, fun b => rfl,
    fun b l i => ⟨ramp_up, ramp_down, ramp_between, finalLevels_le b _ l i⟩, fun b m => targetSwivel_zero,
    fun s b awake flight => ?completion, fun s f awake reply pending => ?restart, rfl, ?reset,
    fun b => ?base, fun b m a steer on normal h1 h2 h3 h4 band unknown known valued => ?curve,
    fun p pitch l i r c => ?shift, fun b m => ⟨rowShiftOf_zero, fun x => rowShiftOf_pitch, rfl⟩⟩
  case completion => exact ⟨_, exec_buildCompletion awake flight, completeBuild_keeps_built b s⟩
  case restart => exact ⟨_, exec_upstreamTxComplete_restart awake reply pending, rfl, pbAfterReset_previous _ _ _⟩
  case reset => exact pbAfterReset_previous _ _ _
  case base =>
    refine ⟨rfl, ?_⟩
    rw [planOf_profile]
    cases (planOf b).mode <;> rfl
  case curve =>
    rw [targetSwivel_curve steer on normal, speedBand_eq unknown known valued]
    exact alongPoints_curve h1 h2 h3 h4 band a
  case shift =>
    refine ⟨fun held row column => ?_, fun dark outside => ?_⟩
    · exact levelled_eq (shiftedIndex_eq_some rfl rfl (held.imp_right And.left) row)
        (shiftedIndex_eq_some rfl rfl (held.imp_right And.right) column)
    · refine levelled_zero ?_
      rw [dark]
      obtain above | below | left | right := outside
      · exact .inl (shiftedIndex_eq_none (.inl above))
      · exact .inl (shiftedIndex_eq_none (.inr (Int.add_one_le_of_lt below)))
      · exact .inr (shiftedIndex_eq_none (.inl left))
      · exact .inr (shiftedIndex_eq_none (.inr (Int.add_one_le_of_lt right)))

end Sys2Proof.Machine

/-! The mode of a build: what each test of R67, R68 and R69 asks, the mode where it is the first that holds, and the
statement about the mode. -/

namespace Sys2Proof.Machine

/-! ## The speed tests and the road class (R68, R69) -/

/-- A speed test holds just where the speed is known and passes it (R69). -/
theorem speedTest_iff (b : BuildInputs) (test : Nat → Bool) :
    speedTest b test = true ↔ b.speed.fresh = true ∧ ∃ v, b.speed.value = some v ∧ test v = true := by
  rw [speedTest, Bool.and_eq_true, Option.any_eq_true]

/-- The town speed test asks for a speed below the town speed, in TOWN one hysteresis higher (R69). -/
theorem townSpeedTest_iff (b : BuildInputs) :
    townSpeedTest b = true ↔ b.speed.fresh = true ∧ ∃ v, b.speed.value = some v ∧
      v < (if b.mode = .town then b.tables.mode.townSpeed + b.tables.mode.hysteresis
        else b.tables.mode.townSpeed) := by
  simp only [townSpeedTest, speedTest_iff, decide_eq_true_eq]

/-- The motorway speed test asks for the motorway speed, in MOTORWAY one hysteresis lower (R69). -/
theorem motorwaySpeedTest_iff (b : BuildInputs) :
    motorwaySpeedTest b = true ↔ b.speed.fresh = true ∧ ∃ v, b.speed.value = some v ∧
      (if b.mode = .motorway then b.tables.mode.motorwaySpeed - b.tables.mode.hysteresis
        else b.tables.mode.motorwaySpeed) ≤ v := by
  simp only [motorwaySpeedTest, speedTest_iff, decide_eq_true_eq]

/-- A road class is this one just where it is fresh and says so (R68). -/
theorem roadIs_iff (b : BuildInputs) (r : RoadClass) :
    roadIs b r = true ↔ b.road.fresh = true ∧ b.road.value = some r := by
  rw [roadIs, Bool.and_eq_true, decide_eq_true_iff]

/-! ## The automatic mode (R68) -/

/-- Whether road class, streetlights or speed make it TOWN (R68). -/
def townHolds (b : BuildInputs) : Bool :=
  roadIs b .urban || decide (b.tables.mode.townThreshold ≤ b.streetlights) || townSpeedTest b

/-- Any one of the three makes it TOWN (R68). -/
theorem townHolds_iff (b : BuildInputs) : townHolds b = true ↔
    roadIs b .urban = true ∨ b.tables.mode.townThreshold ≤ b.streetlights ∨ townSpeedTest b = true := by
  rw [townHolds, Bool.or_eq_true, Bool.or_eq_true, decide_eq_true_iff, or_assoc]

/-- Bad weather is ADVERSE (R68). -/
theorem autoMode_adverse {b : BuildInputs} (bad : b.tables.mode.adverseThreshold ≤ effectiveWeather b) :
    autoMode b = .adverse :=
  if_pos bad

/-- In better weather the test of TOWN comes first, then that of MOTORWAY, and COUNTRY is left (R68). -/
theorem autoMode_fair {b : BuildInputs} (fair : effectiveWeather b < b.tables.mode.adverseThreshold) :
    (townHolds b = true → autoMode b = .town)
    ∧ (¬townHolds b = true →
      (roadIs b .motorway = true ∧ motorwaySpeedTest b = true → autoMode b = .motorway)
      ∧ (¬(roadIs b .motorway = true ∧ motorwaySpeedTest b = true) → autoMode b = .country)) := by
  have inOrder : autoMode b = if townHolds b = true then .town
      else if roadIs b .motorway && motorwaySpeedTest b then .motorway else .country :=
    if_neg (Nat.not_le.mpr fair)
  rw [inOrder, ← Bool.and_eq_true]
  refine ⟨fun town => if_pos town, fun notTown => ⟨fun fast => ?_, fun notFast => ?_⟩⟩
  · rw [if_neg notTown, if_pos fast]
  · rw [if_neg notTown, if_neg notFast]

/-! ## The tests of R67, in order -/

/-- In CONFIG the request decides between OFF and FALLBACK (R67). -/
theorem chooseMode_config {b : BuildInputs} (h : b.config = .config) :
    chooseMode b = if effectiveRequest b = .off then .off else .fallback :=
  if_pos h

/-- The request OFF is OFF (R67). -/
theorem chooseMode_off {b : BuildInputs} (run : b.config = .run) (off : effectiveRequest b = .off) :
    chooseMode b = .off := by
  simp only [chooseMode, run, off, reduceCtorEq, if_false, if_true]

/-- FALLBACK by the action level (R67). -/
theorem chooseMode_fallback {b : BuildInputs} (run : b.config = .run) (on : effectiveRequest b ≠ .off)
    (fallback : b.action = .fallback) : chooseMode b = .fallback := by
  simp only [chooseMode, run, on, fallback, reduceCtorEq, if_false, if_true]

/-- LOW while something holds the beam low, whatever is requested (R67). -/
theorem chooseMode_held {b : BuildInputs} (run : b.config = .run) (on : effectiveRequest b ≠ .off)
    (action : b.action ≠ .fallback) (held : b.holdLow = true ∨ b.action = .lowOnly) : chooseMode b = .low := by
  have cond : (b.holdLow || decide (b.action = .lowOnly)) = true := by
    rwa [Bool.or_eq_true, decide_eq_true_iff]
  simp only [chooseMode, run, on, action, cond, reduceCtorEq, if_false, if_true]

/-- With nothing holding the beam low the request decides (R67). -/
theorem chooseMode_free {b : BuildInputs} (run : b.config = .run) (on : effectiveRequest b ≠ .off)
    (action : b.action ≠ .fallback) (free : b.holdLow = false) (notLow : b.action ≠ .lowOnly) :
    (effectiveRequest b = .low → chooseMode b = .low)
    ∧ (effectiveRequest b = .flash ∨ effectiveRequest b = .full → chooseMode b = .full)
    ∧ (effectiveRequest b = .highAuto → chooseMode b = autoMode b) := by
  have cond : ¬(b.holdLow || decide (b.action = .lowOnly)) = true := by
    rw [free, Bool.false_or, decide_eq_true_iff]
    exact notLow
  simp only [chooseMode, run, on, action, cond, reduceCtorEq, if_false]
  cases effectiveRequest b <;> simp

/-- LOW by the override, by the action level or by the request (R67). -/
theorem chooseMode_low {b : BuildInputs} (run : b.config = .run) (on : effectiveRequest b ≠ .off)
    (action : b.action ≠ .fallback) (low : b.holdLow = true ∨ b.action = .lowOnly ∨ effectiveRequest b = .low) :
    chooseMode b = .low := by
  by_cases held : b.holdLow = true ∨ b.action = .lowOnly
  · exact chooseMode_held run on action held
  · obtain ⟨free, notLow⟩ := not_or.mp held
    have requested : effectiveRequest b = .low := (low.resolve_left free).resolve_left notLow
    obtain ⟨ofLow, -, -⟩ := chooseMode_free run on action (Bool.eq_false_iff.mpr free) notLow
    exact ofLow requested

/-! ## What the inputs hold for it (R58, R65) -/

/-- The streetlight count is that of the CONFIRMED tracks of the class (R58). -/
theorem streetlightCount_eq (tracks : Row 24 (Option Track)) :
    streetlightCount tracks = (List.finRange 24).countP fun n =>
      (tracks.get n).any fun t => decide (t.state = .confirmed) && decide (t.cls = .streetlight) := by
  refine List.countP_congr fun n _ => ?_
  cases tracks.get n <;> rfl

/-- Settles O32: the tests of `chooseMode` in their order, then those of `autoMode`. -/
theorem modeIsTheFirstTestThatHolds : Obligations.ModeIsTheFirstTestThatHolds := by
  refine ⟨fun b => ⟨chooseMode_config, fun run => ⟨chooseMode_off run, chooseMode_fallback run, fun on action =>
    ⟨chooseMode_low run on action, fun free notLow => ?byRequest⟩⟩⟩, fun v tu links cm mu pb =>
    ⟨rfl, streetlightCount_eq tu.tracks⟩⟩
  obtain ⟨-, full, auto⟩ := chooseMode_free run on action free notLow
  refine ⟨full, fun high => ?_⟩
  have automatic : chooseMode b = autoMode b := auto high
  rw [automatic]
  refine ⟨autoMode_adverse, fun fair => ?_⟩
  have tests := autoMode_fair fair
  rwa [townHolds_iff, townSpeedTest_iff, motorwaySpeedTest_iff, roadIs_iff, roadIs_iff] at tests

end Sys2Proof.Machine

/-! A valid STATUS: how its frame comes to be taken, what the taking leaves of the link and of the module, and the
statement about it (R107 with R104 and R112). -/

namespace Sys2Proof.Machine

/-! ## Valid frames (R104) -/

/-- A link's controller that has checked a valid frame of a module and not yet taken it by its kind (R104). -/
def slcHeard (k : Slot) (c : Slc) : Slc :=
  { c with
    modules := c.modules.set k { c.modules.get k with misses := 0 }
    stats := bumpAt Stat.lnkRxFrames c.stats }

/-- A good frame of a module that is not ABSENT is heard and then taken by its kind (R104). -/
theorem receiveLink_good {s : State} {l : Link} {bytes : List Byte} {f : ModuleFrame}
    (good : linkArrival bytes = .good f) (present : effState (moduleRec s l (frameSlot f)) ≠ .absent) :
    receiveLink l bytes s = takeModuleFrame l f (updLink l (slcHeard (frameSlot f)) s) := by
  simp only [receiveLink, good, if_neg present, countLink, updModule, updLink_updLink]
  rfl

/-- LINK_FRAME_RECEIVE outside a reset is the check of the frame. -/
theorem exec_linkFrameReceive {s : State} (h : s.inReset = false) (l : Link) (bytes : List Byte) :
    exec (.linkFrameReceive l bytes) s = .next (receiveLink l bytes s) :=
  running_awake h (receiveLink l bytes)

/-! ## Taking a STATUS (R107) -/

/-- A JOINING module becomes ACTIVE just where a JOIN is outstanding (R107). -/
theorem stateAfterStatus_joining {m : ModuleRec} (joining : m.state = .joining) (isolation : Bool) :
    stateAfterStatus isolation m = if m.outstanding.map Prod.fst = some .join then .active else .joining := by
  rw [stateAfterStatus, joining]
  obtain _ | ⟨_ | _, _⟩ := m.outstanding <;> rfl

/-- An ACTIVE module stays ACTIVE (R107). -/
theorem stateAfterStatus_active {m : ModuleRec} (active : m.state = .active) (isolation : Bool) :
    stateAfterStatus isolation m = .active := by
  rw [stateAfterStatus, active]

/-- A BROKEN module becomes ACTIVE just where isolation is OFF (R107). -/
theorem stateAfterStatus_broken {m : ModuleRec} (broken : m.state = .broken) (isolation : Bool) :
    stateAfterStatus isolation m = if isolation then .broken else .active := by
  rw [stateAfterStatus, broken]

/-- A record that is ABSENT stays so (R107). -/
theorem stateAfterStatus_absent {m : ModuleRec} (absent : m.state = .absent) (isolation : Bool) :
    stateAfterStatus isolation m = .absent := by
  rw [stateAfterStatus, absent]

/-- A link's controller after a STATUS: the module's record, LNK_STATUS_TAKEN, and LNK_JOINS on entry into ACTIVE
(R107). -/
def slcAfterStatus (isolation : Bool) (k : Slot) (band : Nat) (sf : Bool) (failed : List Nat) (c : Slc) : Slc :=
  let m := c.modules.get k
  let taken := bumpAt Stat.lnkStatusTaken c.stats
  { c with
    modules := c.modules.set k (recordAfterStatus isolation band sf failed m)
    stats := if m.state ≠ .active ∧ stateAfterStatus isolation m = .active then bumpAt Stat.lnkJoins taken else taken }

/-- A STATUS by which the module enters ACTIVE counts LNK_JOINS beside LNK_STATUS_TAKEN (R107). -/
theorem slcAfterStatus_enters {isolation : Bool} {k : Slot} {c : Slc} (band : Nat) (sf : Bool) (failed : List Nat)
    (enters : (c.modules.get k).state ≠ .active ∧ stateAfterStatus isolation (c.modules.get k) = .active) :
    slcAfterStatus isolation k band sf failed c = { c with
      modules := c.modules.modify k (recordAfterStatus isolation band sf failed)
      stats := bumpAt Stat.lnkJoins (bumpAt Stat.lnkStatusTaken c.stats) } := by
  rw [slcAfterStatus, if_pos enters]
  rfl

/-- Any other STATUS counts LNK_STATUS_TAKEN alone (R107). -/
theorem slcAfterStatus_otherwise {isolation : Bool} {k : Slot} {c : Slc} (band : Nat) (sf : Bool) (failed : List Nat)
    (other : ¬((c.modules.get k).state ≠ .active ∧ stateAfterStatus isolation (c.modules.get k) = .active)) :
    slcAfterStatus isolation k band sf failed c = { c with
      modules := c.modules.modify k (recordAfterStatus isolation band sf failed)
      stats := bumpAt Stat.lnkStatusTaken c.stats } := by
  rw [slcAfterStatus, if_neg other]
  rfl

/-- Two changes that agree on the controller as it stands are the same change of the link. -/
theorem updLink_congr {l : Link} {f g : Slc → Slc} {s : State} (h : f (s.links.get l) = g (s.links.get l)) :
    updLink l f s = updLink l g s := by
  rw [updLink_set, updLink_set, h]

/-- The record and the counters, updated one after the other, are one change of the link (R107). -/
theorem countStatus_eq (l : Link) (k : Slot) (band : Nat) (sf : Bool) (failed : List Nat) (s : State) :
    let m := moduleRec s l k
    let taken := countLink l Stat.lnkStatusTaken (updModule l k (recordAfterStatus s.mu.isolation band sf failed) s)
    (if m.state ≠ .active ∧ stateAfterStatus s.mu.isolation m = .active then countLink l Stat.lnkJoins taken else taken)
      = updLink l (slcAfterStatus s.mu.isolation k band sf failed) s := by
  intro m taken
  by_cases enters : m.state ≠ .active ∧ stateAfterStatus s.mu.isolation m = .active
  · rw [if_pos enters]
    simp only [taken, countLink, updModule, updLink_updLink]
    exact updLink_congr (slcAfterStatus_enters band sf failed enters).symm
  · rw [if_neg enters]
    simp only [taken, countLink, updModule, updLink_updLink]
    exact updLink_congr (slcAfterStatus_otherwise band sf failed enters).symm

/-- The taking of a STATUS, whole: the change of the link, the build trigger for a changed band or list, and the link's
report (R107). -/
theorem takeStatus_eq (l : Link) (k : Slot) (band : Nat) (sf : Bool) (failed : List Nat) (s : State) :
    let m := moduleRec s l k
    let t := updLink l (slcAfterStatus s.mu.isolation k band sf failed) s
    takeStatus l k band sf failed s = reportLink l (if m.band ≠ band ∨ m.failed ≠ failed then trigger t else t) := by
  intro m t
  have link : _ = t := countStatus_eq l k band sf failed s
  simp only [takeStatus, Bool.and_eq_true, Bool.or_eq_true, decide_eq_true_iff, link, m]

/-- A module that has been heard has no miss and is else as it was (R104). -/
theorem moduleRec_slcHeard (s : State) (l : Link) (k : Slot) :
    moduleRec (updLink l (slcHeard k) s) l k = { moduleRec s l k with misses := 0 } := by
  simp only [moduleRec, updLink, slcHeard, Both.get_set_same, Row.get_set_same]

/-- Settles O36: the taking of the STATUS on the link that has heard it, and the link's report. -/
theorem statusUpdatesTheModule : Obligations.StatusUpdatesTheModule := by
  refine ⟨fun s l bytes k band sf failed awake good => ?taken, fun l s => ?reported⟩
  case taken =>
    intro c m present after joined one t
    have state : after = stateAfterStatus s.mu.isolation m := by
      cases h : m.state with
      | absent => simp only [after, h, stateAfterStatus_absent h]
      | joining => simp only [after, h, stateAfterStatus_joining h]
      | active => simp only [after, h, stateAfterStatus_active h]
      | broken => simp only [after, h, stateAfterStatus_broken h]
    have link : updLink l (slcAfterStatus s.mu.isolation k band sf failed) (updLink l (slcHeard k) s) = t := by
      simp only [updLink_updLink, t, joined, state]
      simp only [updLink, slcAfterStatus, slcHeard, Row.get_set_same, Row.set_set]
      rfl
    have taken := takeStatus_eq l k band sf failed (updLink l (slcHeard k) s)
    rw [moduleRec_slcHeard, updLink_mu, link] at taken
    rw [exec_linkFrameReceive awake, receiveLink_good good present]
    exact congrArg _ taken
  case reported =>
    simp only [reportLink_eq, List.append_assoc]

end Sys2Proof.Machine

/-! The generation's delivery: how DU takes a record, how a delivery starts and ends, and how the ack set shrinks to the
APPLY (R123 to R128). -/

namespace Sys2Proof.Machine

/-! ## Taking a generation record (R123) -/

/-- GENERATION_TAKE outside a reset takes the oldest record. -/
theorem exec_generationTake {s : State} (h : s.inReset = false) {g : GenRecord} {rest : List GenRecord}
    (oldest : s.mail.records = g :: rest) :
    exec .generationTake s = .next (takeRecord g { s with mail := { s.mail with records := rest } }) := by
  simp only [exec, execGenerationTake, running_awake h, oldest]

/-- A record taken with the Delivering slot empty starts its delivery (R123). -/
theorem takeRecord_idle {s : State} (idle : s.du.delivering = none) (g : GenRecord) :
    takeRecord g s = startDelivery g s := by
  simp only [takeRecord, idle]

/-- A record taken during a delivery waits where no other does (R123). -/
theorem takeRecord_waits {s : State} (busy : s.du.delivering ≠ none) (free : s.du.waiting = none) (g : GenRecord) :
    takeRecord g s = { s with du := { s.du with waiting := some g } } := by
  obtain ⟨d, hd⟩ := Option.ne_none_iff_exists'.mp busy
  simp only [takeRecord, hd, free]

/-- A record taken during a delivery supersedes the one that waits (R123). -/
theorem takeRecord_supersedes {s : State} (busy : s.du.delivering ≠ none) (waits : s.du.waiting ≠ none)
    (g : GenRecord) : takeRecord g s = { s with
      du := { s.du with waiting := some g, stats := bumpAt Stat.duSuperseded s.du.stats } } := by
  obtain ⟨d, hd⟩ := Option.ne_none_iff_exists'.mp busy
  obtain ⟨w, hw⟩ := Option.ne_none_iff_exists'.mp waits
  simp only [takeRecord, hd, hw]
  rfl

/-! ## The start of a delivery (R124, R125) -/

/-- The slots of a link whose modules are ACTIVE, in slot order (R124). -/
def activeSlots (links : Both Slc) (l : Link) : List Slot :=
  allSlots.filter fun k => decide (effState ((links.get l).modules.get k) = .active)

/-- The ACTIVE modules are the active slots of the LEFT link, then those of the RIGHT one (R124). -/
theorem activeModules_slots (s : State) : activeModules s.links
    = (activeSlots s.links .left).map (fun k => (Link.left, k))
      ++ (activeSlots s.links .right).map fun k => (Link.right, k) :=
  activeModules_eq s

/-- A starting delivery has one block for each active slot of a link, in slot order (R124). -/
theorem blocksFor_activeModules (s : State) (g : GenRecord) (l : Link) :
    blocksFor s.mu.tables.modules g (activeModules s.links) l
      = (activeSlots s.links l).map (blockFor s.mu.tables.modules g l) := by
  rw [activeModules_slots, blocksFor_eq]
  cases l <;> rfl

/-- A link's controller after these frames, if any, are placed at the end of its Pattern queue (R113, R115). -/
def slcWithFrames (fs : List PatternFrame) (c : Slc) : Slc :=
  if fs = [] then c else wakeSlc { c with patternQ := c.patternQ ++ fs }

/-- Placing frames on both links changes the two controllers and nothing else (R124). -/
theorem placeBlocks_both (left right : List PatternFrame) (s : State) :
    placeBlocks .right right (placeBlocks .left left s) = { s with
      links := ⟨slcWithFrames left s.links.left, slcWithFrames right s.links.right⟩ } := by
  rw [placeBlocks_eq, placeBlocks_eq]
  rfl

/-- A delivery that finds no ACTIVE module is abandoned (R124). -/
theorem startDelivery_abandons {s : State} (unmanned : activeModules s.links = []) (g : GenRecord) :
    startDelivery g s = { s with
      du := { s.du with
        delivering := none, ackSet := [], applyTimer := none, noModules := true
        stats := bumpAt Stat.duAbandonedEmpty s.du.stats }
      mail := { s.mail with levels := s.mail.levels ++ changed .noModules none s.du.noModules true } } := by
  simp only [startDelivery, unmanned, List.isEmpty_nil, if_true, setNoModules_eq]

/-- A delivery that finds ACTIVE modules has them as its ack set and places their blocks (R124). -/
theorem startDelivery_delivers {s : State} (manned : activeModules s.links ≠ []) (g : GenRecord) :
    startDelivery g s = { s with
      du := { s.du with
        delivering := some (g, .blocks), ackSet := activeModules s.links
        applyTimer := timerIn s s.mu.tables.link.applyTimeout, applyDone := ⟨false, false⟩, noModules := false
        stats := bumpAt Stat.duDeliveries s.du.stats }
      links :=
        ⟨slcWithFrames ((activeSlots s.links .left).map (blockFor s.mu.tables.modules g .left)) s.links.left,
          slcWithFrames ((activeSlots s.links .right).map (blockFor s.mu.tables.modules g .right)) s.links.right⟩
      mail := { s.mail with levels := s.mail.levels ++ changed .noModules none s.du.noModules false } } := by
  simp only [startDelivery, List.isEmpty_iff, if_neg manned, setNoModules_eq, startTimer_eq, placeBlocks_both,
    blocksFor_activeModules]

/-! ## The end of a delivery (R123) -/

/-- A delivery that ends with no record waiting leaves both slots empty. -/
theorem endDelivery_empties {s : State} (free : s.du.waiting = none) : endDelivery s = { s with
    du := { s.du with delivering := none, waiting := none, ackSet := [], applyTimer := none } } := by
  simp only [endDelivery, free]

/-- A delivery that ends with a record waiting starts that record's delivery. -/
theorem endDelivery_starts {s : State} {g : GenRecord} (waits : s.du.waiting = some g) :
    endDelivery s = startDelivery g { s with
      du := { s.du with delivering := none, waiting := none, ackSet := [], applyTimer := none } } := by
  simp only [endDelivery, waits]

/-! ## The window order (R125) -/

/-- The segment at a place of a well-placed window's order is the one R89 numbers there. -/
theorem windowSegments_getElem?_eq_some {e : ModuleEntry} (rows : e.firstRow + e.rowCount ≤ 4)
    (columns : e.firstColumn + e.columnCount ≤ 24) (k : Nat) (i : SegNo) :
    (windowSegments e)[k]? = some i ↔ k < e.rowCount * e.columnCount
      ∧ i.val = (e.firstRow + k / e.columnCount) * 24 + (e.firstColumn + k % e.columnCount) := by
  rw [(windowSegments_at e rows columns).2 k, ← windowSegment_eq_some]
  split
  case isTrue => rfl
  case isFalse beyond => simp [windowSegment_eq_some, beyond]

/-- Settles O42: the three fates of a record, the two of a delivery's start, its end, and the window order. -/
theorem generationsAreDeliveredWaitOrSupersede : Obligations.GenerationsAreDeliveredWaitOrSupersede := by
  refine ⟨fun s g rest awake oldest => ?taken, fun s g => ?started, fun s => ?ended, fun e rows columns => ?window⟩
  case taken =>
    intro base
    rw [exec_generationTake awake oldest]
    exact ⟨fun idle => congrArg _ (takeRecord_idle (s := base) idle g),
      fun busy free => congrArg _ (takeRecord_waits (s := base) busy free g),
      fun busy waits => congrArg _ (takeRecord_supersedes (s := base) busy waits g)⟩
  case started =>
    intro active members blocks queued
    have formed : activeModules s.links = members := activeModules_slots s
    have placed (l : Link) : slcWithFrames ((activeSlots s.links l).map (blockFor s.mu.tables.modules g l))
        (s.links.get l) = queued l := by
      simp only [slcWithFrames, List.map_eq_nil_iff]
      rfl
    refine ⟨fun unmanned => startDelivery_abandons (formed.trans unmanned) g, fun manned => ?_⟩
    rw [startDelivery_delivers (formed ▸ manned), formed, ← placed .left, ← placed .right]
    rfl
  case ended =>
    exact ⟨endDelivery_empties, fun g => endDelivery_starts⟩
  case window =>
    exact ⟨(windowSegments_at e rows columns).1, windowSegments_getElem?_eq_some rows columns⟩

/-! ## Acknowledgements (R126) -/

/-- BLOCK_ACK_TAKE outside a reset takes the oldest acknowledgement of its link. -/
theorem exec_blockAckTake {s : State} (h : s.inReset = false) {l : Link} {a : Ack}
    (oldest : s.mail.acks.find? (fun a => decide (a.link = l)) = some a) :
    exec (.blockAckTake l) s = .next (takeAck a { s with mail := { s.mail with acks := s.mail.acks.erase a } }) := by
  simp only [exec, execBlockAckTake, running_awake h, oldest]

/-- An acknowledgement is stale with no delivery or another generation's number (R126). -/
theorem takeAck_stale {s : State} {a : Ack}
    (other : ∀ g ph, s.du.delivering = some (g, ph) → g.number ≠ a.gen) :
    takeAck a s = countDelivery Stat.duAcksStale s := by
  cases hd : s.du.delivering with
  | none => simp only [takeAck, hd]
  | some d => simp only [takeAck, hd, if_pos (other d.1 d.2 hd)]

/-- An acknowledgement of the generation being delivered is unexpected from outside the ack set (R126). -/
theorem takeAck_unexpected {s : State} {a : Ack} {g : GenRecord} {ph : Phase}
    (delivering : s.du.delivering = some (g, ph)) (same : g.number = a.gen) (outside : (a.link, a.slot) ∉ s.du.ackSet) :
    takeAck a s = countDelivery Stat.duAcksUnexpected s := by
  simp only [takeAck, delivering, same, ne_eq, not_true_eq_false, if_false, List.contains_iff_mem, if_neg outside]

/-- An acknowledgement of the generation being delivered takes its module out of the ack set (R126). -/
theorem takeAck_counted {s : State} {a : Ack} {g : GenRecord} {ph : Phase}
    (delivering : s.du.delivering = some (g, ph)) (same : g.number = a.gen) (member : (a.link, a.slot) ∈ s.du.ackSet) :
    takeAck a s = leaveAckSet g a.link a.slot (countDelivery Stat.duAcks s) := by
  simp only [takeAck, delivering, same, ne_eq, not_true_eq_false, if_false, List.contains_iff_mem, if_pos member]

/-! ## BROKEN notices (R127) -/

/-- BROKEN_NOTICE_TAKE outside a reset takes the oldest notice of its link. -/
theorem exec_brokenNoticeTake {s : State} (h : s.inReset = false) {l : Link} {k : Slot}
    (oldest : s.mail.broken.find? (fun m => decide (m.1 = l)) = some (l, k)) : exec (.brokenNoticeTake l) s
      = .next (takeBroken l k { s with mail := { s.mail with broken := s.mail.broken.erase (l, k) } }) := by
  simp only [exec, execBrokenNoticeTake, running_awake h, oldest]

/-- A notice about a module outside the ack set changes nothing (R127). -/
theorem takeBroken_outside {s : State} {l : Link} {k : Slot} (outside : (l, k) ∉ s.du.ackSet) :
    takeBroken l k s = s := by
  unfold takeBroken
  split
  · simp only [List.contains_iff_mem, if_neg outside]
  · rfl
  · rfl

/-- In phase BLOCKS a notice takes its module out of the ack set (R127). -/
theorem takeBroken_drops {s : State} {l : Link} {k : Slot} {g : GenRecord}
    (delivering : s.du.delivering = some (g, .blocks)) (member : (l, k) ∈ s.du.ackSet) :
    takeBroken l k s = leaveAckSet g l k (countDelivery Stat.duBrokenDrops s) := by
  simp only [takeBroken, delivering, List.contains_iff_mem, if_pos member]

/-- Settles O43: how an acknowledgement is classed, what a notice does, and the leaving of the ack set they share. The
equations hold in every state; `DeliverySound` only says that in phase APPLYING no module is left to leave. -/
theorem acksAndBreaksShrinkTheAckSet : Obligations.AcksAndBreaksShrinkTheAckSet := by
  intro s l awake _ leave
  refine ⟨fun a oldest => ?ack, fun k oldest => ?broken⟩
  case ack =>
    intro base
    obtain rfl : a.link = l := by simpa using List.find?_some oldest
    rw [exec_blockAckTake awake oldest]
    refine ⟨fun other => congrArg _ (takeAck_stale (s := base) other), fun g ph delivering same =>
      ⟨fun outside => congrArg _ (takeAck_unexpected (s := base) delivering same outside), fun member => congrArg _ ?_⟩⟩
    exact (takeAck_counted (s := base) delivering same member).trans (leaveAckSet_eq g a.link a.slot _ base)
  case broken =>
    intro base
    rw [exec_brokenNoticeTake awake oldest]
    refine ⟨fun outside => congrArg _ (takeBroken_outside (s := base) outside), fun g delivering member =>
      congrArg _ ?_⟩
    exact (takeBroken_drops (s := base) delivering member).trans (leaveAckSet_eq g l k _ base)

end Sys2Proof.Machine

/-! The machines of the Condition Monitor: how a report, an event and an expiry come to be taken, what the level machine
and the event machine make of a record in each state, and the statements about them (R135, R138 and R140). -/

namespace Sys2Proof.Machine

/-- A timer started with an interval is due that many ms later. -/
theorem startTimer_eq_some (now ms : Nat) : startTimer now ms = some (now + 1000 * ms) := by
  rw [startTimer, msToUs, Nat.mul_comm]

/-! ## Taking a raw report (R135) -/

/-- The state without a raw report under way that CM has taken. -/
def withoutReport (x : LevelReport) (s : State) : State :=
  { s with mail := { s.mail with levels := s.mail.levels.erase x } }

/-- A condition's record with a raw report of it stored (R135). -/
def storedRec (x : LevelReport) (s : State) : CondRec :=
  storeRaw x.link x.value (condRec s x.cond)

/-- The state once a raw report is stored in its condition's record (R135). -/
def withReportStored (x : LevelReport) (s : State) : State :=
  { s with cm := { s.cm with recs := s.cm.recs.set (condNo x.cond) (storedRec x s) } }

@[simp] theorem withReportStored_mu (x : LevelReport) (s : State) : (withReportStored x s).mu = s.mu := rfl

@[simp] theorem withReportStored_condRec (x : LevelReport) (s : State) :
    condRec (withReportStored x s) x.cond = storedRec x s :=
  Row.get_set_same ..

/-- A condition's machine settles the move it makes of the record under the entry in force. -/
theorem runCondition_eq (c : Cond) (move : CondEntry → CondRec → Moved) (s : State) :
    runCondition c move s = settle c (move (s.mu.tables.condition.get (condNo c)) (condRec s c)) s := rfl

section TakingAReport

variable {x : LevelReport} {s : State}

/-- A report that leaves the raw value as it was is only stored (R135). -/
theorem takeLevelReport_same (same : condRaw x.cond (storedRec x s) = condRaw x.cond (condRec s x.cond)) :
    takeLevelReport x s = withReportStored x s :=
  if_pos same

/-- A report that changes the raw value is stored and goes to the level machine (R135, R138). -/
theorem takeLevelReport_changes (changes : condRaw x.cond (storedRec x s) ≠ condRaw x.cond (condRec s x.cond)) :
    takeLevelReport x s = runCondition x.cond
      (fun e r => if condRaw x.cond (storedRec x s) then levelTrue s.now e r else levelFalse s.now e r)
      (withReportStored x s) :=
  if_neg changes

/-- A report by which the raw value becomes true (R138). -/
theorem takeLevelReport_rises (was : condRaw x.cond (condRec s x.cond) = false)
    (is : condRaw x.cond (storedRec x s) = true) :
    takeLevelReport x s = settle x.cond (levelTrue s.now (s.mu.tables.condition.get (condNo x.cond))
      (storedRec x s)) (withReportStored x s) := by
  rw [takeLevelReport_changes (x := x) (s := s) (by rw [was, is]; decide), runCondition_eq, if_pos is,
    withReportStored_condRec, withReportStored_mu]

/-- A report by which the raw value becomes false (R138). -/
theorem takeLevelReport_falls (was : condRaw x.cond (condRec s x.cond) = true)
    (is : condRaw x.cond (storedRec x s) = false) :
    takeLevelReport x s = settle x.cond (levelFalse s.now (s.mu.tables.condition.get (condNo x.cond))
      (storedRec x s)) (withReportStored x s) := by
  rw [takeLevelReport_changes (x := x) (s := s) (by rw [was, is]; decide), runCondition_eq,
    if_neg (Bool.eq_false_iff.mp is), withReportStored_condRec, withReportStored_mu]

end TakingAReport

/-! ## The rows of the Condition Monitor outside a reset -/

section Rows

variable {s : State} {c : Cond} (awake : s.inReset = false)
include awake

/-- LEVEL_RAW_REPORT takes the oldest report of its condition and link. -/
theorem exec_levelRawReport {l : Option Link} {x : LevelReport}
    (oldest : s.mail.levels.find? (reportsOn c l) = some x) :
    exec (.levelRawReport c l) s = .next (takeLevelReport x (withoutReport x s)) := by
  simp only [exec, execLevelRawReport, running_awake awake, oldest, withoutReport]

/-- CONDITION_EVENT takes a waiting event of its condition. -/
theorem exec_conditionEvent (waits : c ∈ s.mail.events) : exec (.conditionEvent c) s = .next (takeEvent c s) :=
  whenever_holds awake (List.contains_iff_mem.mpr waits) (takeEvent c)

/-- PERSISTENCE_TIMER_EXPIRY, when due, runs the level machine. -/
theorem exec_persistenceTimerExpiry (expired : due s.now (condRec s c).persist = true) :
    exec (.persistenceTimerExpiry c) s = .next (settle c (persistenceExpires (condRec s c)) s) :=
  whenever_holds awake expired _

/-- LEVEL_RECOVERY_TIMER_EXPIRY of a level condition, when due, runs the level machine. -/
theorem exec_levelRecoveryTimerExpiry (level : condKind c = .level)
    (expired : due s.now (condRec s c).recover = true) :
    exec (.levelRecoveryTimerExpiry c) s = .next (settle c (levelRecoveryExpires (condRec s c)) s) :=
  whenever_holds awake ((Bool.and_eq_true _ _).mpr ⟨decide_eq_true level, expired⟩) _

/-- EVENT_RECOVERY_TIMER_EXPIRY of an event condition, when due, runs the event machine. -/
theorem exec_eventRecoveryTimerExpiry (event : condKind c = .event)
    (expired : due s.now (condRec s c).recover = true) :
    exec (.eventRecoveryTimerExpiry c) s = .next (settle c
      (eventRecoveryExpires s.now (s.mu.tables.condition.get (condNo c)) (condRec s c)) s) :=
  whenever_holds awake ((Bool.and_eq_true _ _).mpr ⟨decide_eq_true event, expired⟩) _

end Rows

/-! ## The level machine, state by state (R138) -/

section LevelMachine

variable {r : CondRec} (now : Nat) (e : CondEntry)

/-- Entering RECOVERING starts the recovery timer, or goes on to CLEAR at Q of 0. -/
theorem levelRecover_eq (r : CondRec) : levelRecover now e r =
    if e.recovery = 0 then
      ⟨{ r with state := .clear, count := 0, persist := none, recover := none }, [.recovering, .clear]⟩
    else ⟨{ r with state := .recovering, recover := some (now + 1000 * e.recovery) }, [.recovering]⟩ := by
  rw [levelRecover, startTimer_eq_some, intoClear]

/-- From CLEAR a raw value becoming true starts the persistence timer, or goes through to FAULT at P of 0. -/
theorem levelTrue_clear (clear : r.state = .clear) : levelTrue now e r =
    if e.persistence = 0 then
      ⟨{ r with state := .fault, faults := bump r.faults, persist := none }, [.alert, .fault]⟩
    else ⟨{ r with state := .alert, persist := some (now + 1000 * e.persistence) }, [.alert]⟩ := by
  simp only [levelTrue, clear, startTimer_eq_some, intoFault]

/-- From RECOVERING a raw value becoming true gives FAULT and cancels the recovery timer. -/
theorem levelTrue_recovering (recovering : r.state = .recovering) : levelTrue now e r =
    ⟨{ r with state := .fault, faults := bump r.faults, persist := none, recover := none }, [.fault]⟩ := by
  simp only [levelTrue, recovering, intoFault]

/-- In FAULT a raw value becoming true changes nothing. -/
theorem levelTrue_fault (fault : r.state = .fault) : levelTrue now e r = ⟨r, []⟩ := by
  simp only [levelTrue, fault, stay]

/-- From ALERT a raw value becoming false gives CLEAR and cancels the persistence timer. -/
theorem levelFalse_alert (alert : r.state = .alert) :
    levelFalse now e r = ⟨{ r with state := .clear, persist := none }, [.clear]⟩ := by
  simp only [levelFalse, alert]

/-- From FAULT a raw value becoming false gives RECOVERING, unless the condition is latching. -/
theorem levelFalse_fault (fault : r.state = .fault) :
    levelFalse now e r = if e.latching then ⟨r, []⟩ else levelRecover now e r := by
  simp only [levelFalse, fault, stay]

/-- A persistence expiry takes ALERT to FAULT. -/
theorem persistenceExpires_alert (alert : r.state = .alert) :
    persistenceExpires r = ⟨{ r with state := .fault, faults := bump r.faults, persist := none }, [.fault]⟩ := by
  simp only [persistenceExpires, alert, intoFault]

/-- A recovery expiry takes RECOVERING to CLEAR. -/
theorem levelRecoveryExpires_recovering (recovering : r.state = .recovering) : levelRecoveryExpires r =
    ⟨{ r with state := .clear, count := 0, persist := none, recover := none }, [.clear]⟩ := by
  simp only [levelRecoveryExpires, recovering, intoClear]

end LevelMachine

/-- A due persistence expiry of a condition in ALERT takes it to FAULT (R138). -/
theorem exec_persistenceTimerExpiry_alert {s : State} {c : Cond} (awake : s.inReset = false)
    (expired : due s.now (condRec s c).persist = true) (alert : (condRec s c).state = .alert) :
    exec (.persistenceTimerExpiry c) s = .next (settle c ⟨{ condRec s c with
      state := .fault, faults := bump (condRec s c).faults, persist := none }, [.fault]⟩ s) := by
  rw [exec_persistenceTimerExpiry awake expired, persistenceExpires_alert alert]

/-- A due recovery expiry of a level condition in RECOVERING takes it to CLEAR (R138). -/
theorem exec_levelRecoveryTimerExpiry_recovering {s : State} {c : Cond} (awake : s.inReset = false)
    (level : condKind c = .level) (expired : due s.now (condRec s c).recover = true)
    (recovering : (condRec s c).state = .recovering) :
    exec (.levelRecoveryTimerExpiry c) s = .next (settle c ⟨{ condRec s c with
      state := .clear, count := 0, persist := none, recover := none }, [.clear]⟩ s) := by
  rw [exec_levelRecoveryTimerExpiry awake level expired, levelRecoveryExpires_recovering recovering]

/-- Settles O45: the three fates of a report, the two expiries, and the level machine cell by cell. -/
theorem levelConditionsMoveByTheirMachine : Obligations.LevelConditionsMoveByTheirMachine := by
  refine ⟨fun s c l x awake oldest => ?report, fun s c awake => ?expiry, fun now e r => ?machine⟩
  case report =>
    obtain ⟨rfl, rfl⟩ : x.cond = c ∧ x.link = l := by simpa using List.find?_some oldest
    intro old new base entry
    rw [exec_levelRawReport awake oldest]
    exact ⟨fun same => congrArg _ (takeLevelReport_same (s := withoutReport x s) same),
      fun was is => congrArg _ (takeLevelReport_rises (s := withoutReport x s) was is),
      fun was is => congrArg _ (takeLevelReport_falls (s := withoutReport x s) was is)⟩
  case expiry =>
    exact ⟨exec_persistenceTimerExpiry_alert awake, exec_levelRecoveryTimerExpiry_recovering awake⟩
  case machine =>
    intro fault recovering
    refine ⟨levelTrue_clear now e, levelTrue_recovering now e, levelTrue_fault now e, levelFalse_alert now e,
      fun inFault => ?_⟩
    rw [levelFalse_fault now e inFault, levelRecover_eq]

/-! ## The event machine, state by state (R140) -/

/-- The record of an event condition that enters FAULT: counted, its recovery timer restarted, or stopped where the
condition is latching (R140). -/
def eventFault (now : Nat) (e : CondEntry) (r : CondRec) : CondRec :=
  { r with
    state := .fault, faults := bump r.faults, persist := none
    recover := if e.latching then none else some (now + 1000 * e.recovery) }

section EventMachine

variable {r : CondRec} (now : Nat) (e : CondEntry)

/-- The timer of an event condition in FAULT, in the terms of the statements. -/
theorem faultTimer_eq : faultTimer now e = if e.latching then none else some (now + 1000 * e.recovery) := by
  rw [faultTimer, startTimer_eq_some]

/-- From CLEAR the first event gives ALERT with count 1, or goes through to FAULT at N of 1. -/
theorem eventArrives_clear (clear : r.state = .clear) : eventArrives now e r =
    if e.persistence = 1 then ⟨eventFault now e { r with count := 1 }, [.alert, .fault]⟩
    else ⟨{ r with state := .alert, count := 1, recover := some (now + 1000 * e.recovery) }, [.alert]⟩ := by
  simp only [eventArrives, clear, startTimer_eq_some, intoFault, faultTimer_eq, eventFault]

/-- In ALERT an event raises the count and restarts the timer; the count that reaches N gives FAULT. -/
theorem eventArrives_alert (alert : r.state = .alert) : eventArrives now e r =
    if e.persistence ≤ min 255 (r.count + 1) then
      ⟨eventFault now e { r with count := min 255 (r.count + 1) }, [.fault]⟩
    else ⟨{ r with count := min 255 (r.count + 1), recover := some (now + 1000 * e.recovery) }, []⟩ := by
  simp only [eventArrives, alert, startTimer_eq_some, intoFault, faultTimer_eq, eventFault, stay]

/-- In FAULT an event restarts the timer, unless the condition is latching. -/
theorem eventArrives_fault (fault : r.state = .fault) : eventArrives now e r =
    if e.latching then ⟨r, []⟩ else ⟨{ r with recover := some (now + 1000 * e.recovery) }, []⟩ := by
  simp only [eventArrives, fault, startTimer_eq_some, stay]

/-- From RECOVERING an event gives FAULT. -/
theorem eventArrives_recovering (recovering : r.state = .recovering) :
    eventArrives now e r = ⟨eventFault now e r, [.fault]⟩ := by
  simp only [eventArrives, recovering, intoFault, faultTimer_eq, eventFault]

/-- A recovery expiry takes ALERT and RECOVERING to CLEAR with count 0. -/
theorem eventRecoveryExpires_clears (unsettled : r.state = .alert ∨ r.state = .recovering) :
    eventRecoveryExpires now e r =
      ⟨{ r with state := .clear, count := 0, persist := none, recover := none }, [.clear]⟩ := by
  rcases unsettled with alert | recovering
  · simp only [eventRecoveryExpires, alert, intoClear]
  · simp only [eventRecoveryExpires, recovering, intoClear]

/-- A recovery expiry takes FAULT to RECOVERING; of a latching condition it only stops the timer. -/
theorem eventRecoveryExpires_fault (fault : r.state = .fault) : eventRecoveryExpires now e r =
    if e.latching then ⟨{ r with recover := none }, []⟩
    else ⟨{ r with state := .recovering, recover := some (now + 1000 * e.recovery) }, [.recovering]⟩ := by
  simp only [eventRecoveryExpires, fault, stay, eventRecover, startTimer_eq_some]

end EventMachine

/-- Settles O46: the two rows that run the event machine, and that machine state by state. -/
theorem eventConditionsMoveByTheirMachine : Obligations.EventConditionsMoveByTheirMachine := by
  refine ⟨fun s c awake waits => exec_conditionEvent awake waits,
    fun s c awake event expired => exec_eventRecoveryTimerExpiry awake event expired, fun now e r => ?machine⟩
  intro timer fault clear
  exact ⟨eventArrives_clear now e, eventArrives_alert now e, eventArrives_fault now e, eventArrives_recovering now e,
    eventRecoveryExpires_clears now e, eventRecoveryExpires_fault now e⟩

end Sys2Proof.Machine

/-! The upstream transmitter: the frame it starts next, in the fixed order of its sources, and what a completed
transmission and the recovery from DETACHED leave before that choice (R154, R159 and R161). -/

namespace Sys2Proof.Machine

/-! ## The frame chosen next (R161) -/

section Choice

variable {strap : Fin 4} {u : Up}

/-- A DETACHED port or a transmitter that is SENDING chooses nothing. -/
theorem upStartUp_blocked (blocked : u.port = .detached ∨ u.tx ≠ none) : upStartUp strap u = u := by
  refine if_neg fun free => ?_
  rw [Bool.and_eq_true, decide_eq_true_iff, Option.isNone_iff_eq_none] at free
  exact blocked.elim free.1 fun busy => busy free.2

section Free

variable (attached : u.port ≠ .detached) (idle : u.tx = none)
include attached idle

/-- An IDLE transmitter of a port that is not DETACHED chooses. -/
theorem upStartUp_free : upStartUp strap u = upChoose strap u :=
  if_pos ((Bool.and_eq_true _ _).mpr ⟨decide_eq_true attached, Option.isNone_iff_eq_none.mpr idle⟩)

/-- The held frame comes first, and is sent again as it was. -/
theorem upStartUp_held {x : UpTx} (held : u.held = some x) :
    upStartUp strap u = upSendAgain x { u with held := none } := by
  simp only [upStartUp_free attached idle, upChoose, held]

variable (unheld : u.held = none)
include unheld

/-- Next comes the oldest reply, under the reply code. -/
theorem upStartUp_reply {r : Reply} {rest : List Reply} (replies : u.replyQ = r :: rest) :
    upStartUp strap u = upSendNew (.reply r.restart) (replyCode strap) r.payload { u with replyQ := rest } := by
  simp only [upStartUp_free attached idle, upChoose, unheld, replies]

variable (unreplied : u.replyQ = [])
include unreplied

/-- Next comes the NOTICE; one that was never sent takes the transmit sequence. -/
theorem upStartUp_notice {n : Notice} (notice : u.notice = some n) (unsent : n.seq = none) :
    upStartUp strap u = upSendNew .notice (replyCode strap) n.payload { u with notice := none } := by
  simp only [upStartUp_free attached idle, upChoose, unheld, unreplied, notice, unsent]

/-- A NOTICE that came back from a cut is sent again with the sequence it was first given. -/
theorem upStartUp_returnedNotice {n : Notice} {q : BitVec 4} (notice : u.notice = some n) (cut : n.seq = some q) :
    upStartUp strap u = upSendAgain ⟨.notice, ⟨replyCode strap, q, true, n.payload⟩⟩ { u with notice := none } := by
  simp only [upStartUp_free attached idle, upChoose, unheld, unreplied, notice, cut]

variable (unnoticed : u.notice = none)
include unnoticed

/-- Last comes the oldest PASS_UP, under the stream code the module gave. -/
theorem upStartUp_passUp {p : PassFrame} {rest : List PassFrame} (passUps : u.passUpQ = p :: rest) :
    upStartUp strap u = upSendNew .passUp p.code p.payload { u with passUpQ := rest } := by
  simp only [upStartUp_free attached idle, upChoose, unheld, unreplied, unnoticed, passUps]

/-- With no frame in any source the transmitter stays IDLE. -/
theorem upStartUp_empty (empty : u.passUpQ = []) : upStartUp strap u = u := by
  simp only [upStartUp_free attached idle, upChoose, unheld, unreplied, unnoticed, empty]

end Free

end Choice

/-! ## A completed transmission (R161) -/

/-- What UP counts when a frame of this kind has been transmitted: UP_TX_FRAMES, and UP_PASS_UP_SENT for a PASS_UP. -/
def countSent (kind : UpTxKind) (stats : Row 19 Nat) : Row 19 Nat :=
  if kind = .passUp then bumpAt Stat.upPassUpSent (bumpAt Stat.upTxFrames stats) else bumpAt Stat.upTxFrames stats

/-- A completed transmission, save that of the reply a pending RESTART waits for, is counted, and the next frame is
chosen. -/
theorem upSent_eq {x : UpTx} {s : State} (plain : ¬(x.kind = .reply true ∧ s.mu.restartPending = true)) :
    upSent x s = upStart { s with up := { s.up with tx := none, stats := countSent x.kind s.up.stats } } := by
  unfold upSent
  cases kind : x.kind with
  | reply restart =>
    have noRestart : (restart && s.mu.restartPending) ≠ true := fun both => by
      obtain ⟨isRestart, pending⟩ := (Bool.and_eq_true _ _).mp both
      exact plain ⟨kind.trans (congrArg UpTxKind.reply isRestart), pending⟩
    exact if_neg noRestart
  | notice => rfl
  | passUp => rfl

/-! ## The rows of the upstream transmitter outside a reset -/

section Rows

variable {s : State} (awake : s.inReset = false)
include awake

/-- UPSTREAM_TX_COMPLETE takes the frame in hand as transmitted. -/
theorem exec_upstreamTxComplete {x : UpTx} (inHand : s.up.tx = some x) :
    exec .upstreamTxComplete s = .next (upSent x s) := by
  change execUpstreamTxComplete s = _
  simp only [execUpstreamTxComplete, running_awake awake, inHand]

/-- DETACHED_RECOVERY, when due, recovers the port. -/
theorem exec_detachedRecovery (expired : due s.now s.up.recovery = true) :
    exec .detachedRecovery s = .next (recoverPort s) :=
  whenever_holds awake expired recoverPort

end Rows

/-- The recovery spelled out: score, port state and timer of UP, its receiver open from now, LINK_DETACHED false on its
way to CM, and the next frame chosen (R154). -/
theorem recoverPort_eq (s : State) : recoverPort s = { s with
    up := upStartUp s.mu.strap { s.up with score := 0, port := .normal, recovery := none, rxFrom := s.now }
    mail := { s.mail with levels := s.mail.levels ++ [⟨.linkDetached, none, false⟩] } } := rfl

/-- Settles O51: the two rows that leave the transmitter free, and its choice source by source. -/
theorem upstreamTransmissionsInFixedOrder : Obligations.UpstreamTransmissionsInFixedOrder := by
  refine ⟨fun s x awake inHand plain => ?sent, fun s awake expired => ?recovered,
    fun strap u => ⟨upStartUp_blocked, fun attached idle => ⟨fun x => upStartUp_held attached idle,
      fun unheld => ⟨fun r rest => upStartUp_reply attached idle unheld,
        fun unreplied => ⟨fun n notice => ?notice, fun unnoticed =>
          ⟨fun p rest => upStartUp_passUp attached idle unheld unreplied unnoticed,
            upStartUp_empty attached idle unheld unreplied unnoticed⟩⟩⟩⟩⟩⟩
  case sent => rw [exec_upstreamTxComplete awake inHand, upSent_eq plain]; rfl
  case recovered => rw [exec_detachedRecovery awake expired, recoverPort_eq]
  case notice =>
    cases sequence : n.seq with
    | none => exact upStartUp_notice attached idle unheld unreplied notice sequence
    | some q => exact upStartUp_returnedNotice attached idle unheld unreplied notice sequence

end Sys2Proof.Machine

/-! The Management Unit after each kind of reset (R178). -/

namespace Sys2Proof.Machine

/-! ## What a reset leaves of MU and UP (R163, R178) -/

section Reset

variable (t : Tables) (tablesDefault : Bool) (cause : ResetCause) (strap : Fin 4) (pin : SteerPin) (s : State)

/-- A reset sets MU from the tables, TABLES_DEFAULT, cause and strap value it is given, and from nothing else (R178). -/
theorem runReset_mu : (runReset t tablesDefault cause strap pin s).mu = muReset t tablesDefault cause strap := rfl

/-- A reset leaves UP at its reset values, every queue empty (R163). -/
theorem runReset_up : (runReset t tablesDefault cause strap pin s).up = upReset := rfl

end Reset

/-- The reset of RESTART keeps the tables, TABLES_DEFAULT and the strap value of MU (R177, R178). -/
theorem restartReset_mu (s : State) :
    (restartReset s).mu = muReset s.mu.tables s.mu.tablesDefault .restart s.mu.strap :=
  runReset_mu ..

/-- The reset of RESTART leaves UP at its reset values (R163, R177). -/
theorem restartReset_up (s : State) : (restartReset s).up = upReset :=
  runReset_up ..

/-- The recovery of the port leaves MU (R154, R178). -/
theorem recoverPort_mu (s : State) : (recoverPort s).mu = s.mu := by
  rw [recoverPort_eq]

/-! ## The rows that reset -/

/-- POWER_ON is a full reset by power, in every state. -/
theorem exec_powerOn (mgb1 mgb0 : Bool) (s : State) :
    exec (.powerOn mgb1 mgb0) s = .next (fullReset .power mgb1 mgb0 s) := rfl

/-- RESET_PIN is a full reset by the pin, in every state. -/
theorem exec_resetPin (mgb1 mgb0 : Bool) (s : State) :
    exec (.resetPin mgb1 mgb0) s = .next (fullReset .pin mgb1 mgb0 s) := rfl

/-- An event that may be taken leaves the state, or has its effect: what is true of both is true after it. -/
theorem whenever_leads {P : State → Prop} {s : State} {f : State → State} (occasion : Bool) (untaken : P s)
    (taken : P (f s)) : ∃ t, whenever occasion s f = .next t ∧ P t := by
  refine ⟨_, rfl, ?_⟩
  split
  case isTrue => exact untaken
  case isFalse =>
    split
    case isTrue => exact taken
    case isFalse => exact untaken

/-- DETACHED_RECOVERY leaves MU, whether it is taken or not. -/
theorem exec_detachedRecovery_keeps_mu (s : State) : ∃ t, exec .detachedRecovery s = .next t ∧ t.mu = s.mu :=
  whenever_leads (P := fun t => t.mu = s.mu) (due s.now s.up.recovery) rfl (recoverPort_mu s)

/-- Settles O6: the two full resets, the reset of RESTART and the recovery, each by what it leaves of MU and UP. -/
theorem resetLeavesTheManagementUnit : Obligations.ResetLeavesTheManagementUnit := by
  refine ⟨fun a b s => ?full, fun s f awake reply pending => ?restart, exec_detachedRecovery_keeps_mu⟩
  case full =>
    refine ⟨_, _, exec_powerOn a b s, exec_resetPin a b s, ?_⟩
    simp only [fullReset, runReset_mu, runReset_up, muReset, upReset, and_self]
  case restart =>
    refine ⟨_, exec_upstreamTxComplete_restart awake reply pending, ?_⟩
    simp only [restartReset_mu, restartReset_up, muReset, upReset, countPort_mu, and_self]

end Sys2Proof.Machine

/-! What one step can do: every command comes to one event of one block, and every event is listed here with the occasion
it needs. The invariants and the statements on all commands go by the cases of this list. -/

namespace Sys2Proof.Machine

/-! ## The events of each block -/

/-- What the Vehicle State Block's events make of the part (chapter 1). -/
inductive VehicleEvent (s : State) : State → Prop
  | frame : VehicleEvent s (takeVehicleFrame s)
  | staleness (field : VField) : VehicleEvent s (expireField field s)
  | edge : VehicleEvent s (takeEdge s)
  | speedTimeout : VehicleEvent s (expireSpeedTimeout s)
  | step (line : SteerLine) : VehicleEvent s (stepCounter (sampledCounter line s) (flipLine line s))
  | phaseError : VehicleEvent s (countPhaseError { s with sta := !s.sta, stb := !s.stb })
  | parameters (waits : 0 < s.mail.vehicleParams) : VehicleEvent s (takeVehicleParameters s)

/-- What the Scene Assembler's events make of the part (chapter 2). -/
inductive SceneEvent (s : State) : State → Prop
  | frame : SceneEvent s (takeObjectFrame s)
  | timeout : SceneEvent s (expireSceneTimer s)
  | tear (cause : TearCause) : SceneEvent s (takeTear cause s)

/-- What the Track Unit's events make of the part (chapter 3). -/
inductive TrackEvent (s : State) : State → Prop
  | scene (x : Scene) (rest : List ToTu) (first : s.mail.toTu = .scene x :: rest) :
      TrackEvent s (takeScene x { s with mail := { s.mail with toTu := rest } })
  | hold (n : TrackNo) : TrackEvent s (expireHold n s)
  | aging : TrackEvent s (ageTracks s)
  | policy : TrackEvent s { s with mail := { s.mail with classPolicy := s.mail.classPolicy - 1 } }

/-- What the Pattern Builder's events make of the part (chapters 4 and 5). -/
inductive BuildEvent (s : State) : State → Prop
  | refresh : BuildEvent s (expireRefresh s)
  | completion (b : BuildInputs) (inFlight : s.pb.build = some b) : BuildEvent s (completeBuild b s)

/-- What the Delivery Unit's events make of the part (chapter 7). -/
inductive DeliveryEvent (s : State) : State → Prop
  | record (g : GenRecord) (rest : List GenRecord) (first : s.mail.records = g :: rest) :
      DeliveryEvent s (takeRecord g { s with mail := { s.mail with records := rest } })
  | ack (a : Ack) : DeliveryEvent s (takeAck a { s with mail := { s.mail with acks := s.mail.acks.erase a } })
  | broken (m : Link × Slot) :
      DeliveryEvent s (takeBroken m.1 m.2 { s with mail := { s.mail with broken := s.mail.broken.erase m } })
  | timeout (expired : due s.now s.du.applyTimer = true) : DeliveryEvent s (expireApply s)

/-- What a Segment Link Controller's events make of the part (chapter 6). -/
inductive LinkEvent (l : Link) (s : State) : State → Prop
  | frame (bytes : List Byte) : LinkEvent l s (receiveLink l bytes s)
  | replyTimeout (k : Slot) : LinkEvent l s (expireReply l k s)
  | poll : LinkEvent l s (expirePoll l s)
  | wakeEnd (waking : (s.links.get l).tx = .waking) : LinkEvent l s (grantAtWake l s)
  | sent (f : LinkFrame) (q : BitVec 4) (sending : (s.links.get l).tx = .sending f q) :
      LinkEvent l s (grantNext l (frameSent l f s))

/-- What the Condition Monitor's events make of the part (chapter 8). -/
inductive ConditionEvent (s : State) : State → Prop
  | report (x : LevelReport) (waits : x ∈ s.mail.levels) :
      ConditionEvent s (takeLevelReport x { s with mail := { s.mail with levels := s.mail.levels.erase x } })
  | event (c : Cond) (waits : c ∈ s.mail.events) : ConditionEvent s (takeEvent c s)
  | persistence (c : Cond) (expired : due s.now (condRec s c).persist = true) :
      ConditionEvent s (runCondition c (fun _ r => persistenceExpires r) s)
  | levelRecovery (c : Cond) (level : condKind c = .level) (expired : due s.now (condRec s c).recover = true) :
      ConditionEvent s (runCondition c (fun _ r => levelRecoveryExpires r) s)
  | eventRecovery (c : Cond) (event : condKind c = .event) (expired : due s.now (condRec s c).recover = true) :
      ConditionEvent s (runCondition c (eventRecoveryExpires s.now) s)
  | table (x : LatchingChange) (rest : List LatchingChange) (first : s.mail.condTable = x :: rest) :
      ConditionEvent s (takeConditionTable x { s with mail := { s.mail with condTable := rest } })

/-- What the Upstream Port's events make of the part (chapter 9). -/
inductive PortEvent (s : State) : State → Prop
  | frame (bytes : List Byte) (attached : s.up.port ≠ .detached) : PortEvent s (receiveUpstream bytes s)
  | recovery : PortEvent s (recoverPort s)
  | sent (x : UpTx) (inHand : s.up.tx = some x) :
      PortEvent s (upStart { s with up := { s.up with tx := none, stats := countSent x.kind s.up.stats } })

/-- What carrying out a request makes of the part, before the reply is placed (chapter 10). -/
inductive CommandEffect (s : State) : State → Prop
  | nothing : CommandEffect s s
  | clearStatistics (g : StatGroup) (first count : Nat) : CommandEffect s (clearGroup g first count s)
  | loadLive (id : TableId) (first : Nat) (entries : List (List Byte)) (t : Tables) (inConfig : s.mu.config = .config)
      (written : writeEntries id first entries s.mu.tables = .ok t) :
      CommandEffect s
        (moduleLoadFollows id (tableLives id s.mu.tables { s with mu := { s.mu with tables := t } }))
  | loadStaged (id : TableId) (first : Nat) (entries : List (List Byte)) (t : Tables) (inRun : s.mu.config = .run)
      (free : s.mu.commitPending = false)
      (written : writeEntries id first entries (overlay s.mu.staged s.mu.tables) = .ok t) :
      CommandEffect s { s with mu := { s.mu with staged := stageTable id t s.mu.staged } }
  | commit (inRun : s.mu.config = .run) :
      CommandEffect s
        (trigger (countManagement Stat.muCommits { s with mu := { s.mu with commitPending := true } }))
  | rejectCommit (free : s.mu.commitPending = false) :
      CommandEffect s (sendEvent .tableRejected (countManagement Stat.muCommitsRejected
        { s with mu := { s.mu with staged := emptyStaging } }))
  | discard (free : s.mu.commitPending = false) :
      CommandEffect s { s with mu := { s.mu with staged := emptyStaging } }
  | enterConfig :
      CommandEffect s (trigger { s with
        mu := { s.mu with staged := emptyStaging, commitPending := false, config := .config }
        mail := { s.mail with tears := s.mail.tears ++ [.enterConfig] } })
  | exitConfig (inConfig : s.mu.config = .config) : CommandEffect s (exitConfig s)
  | setHold (value : Bool) : CommandEffect s (setHoldLow value s)
  | setIsolation (on : Bool) : CommandEffect s (rejoinAll { s with mu := { s.mu with isolation := on } })
  | steerZero : CommandEffect s (steerZero s)
  | clearTracks :
      CommandEffect s { clearTable s with tu := { (clearTable s).tu with
        stats := bumpAt Stat.trkClears (clearTable s).tu.stats } }
  | clearNotice (numbers : List Byte) : CommandEffect s (clearNotices numbers s)
  | refuseRecover :
      CommandEffect s { s with cm := { s.cm with stats := bumpAt Stat.cmRecoversRefused s.cm.stats } }
  | recoverCondition (c : Cond) : CommandEffect s (runCondition c (recovered s.now c) s)
  | recoverModule (l : Link) (k : Slot) (present : effState (moduleRec s l k) ≠ .absent) :
      CommandEffect s (enterJoining l k s)
  | restart : CommandEffect s { s with mu := { s.mu with restartPending := true } }

/-- What one command makes of the part. -/
inductive Event (s : State) : State → Prop
  | unmoved : Event s s
  | linesMove (sta stb : Bool) : Event s { s with sta := sta, stb := stb }
  | reset (cause : ResetCause) (mgb1 mgb0 : Bool) : Event s (fullReset cause mgb1 mgb0 s)
  | restart : Event s (restartReset s)
  | resetAsserted : Event s (holdInReset s)
  | vehicle {t : State} (awake : s.inReset = false) (event : VehicleEvent s t) : Event s t
  | scene {t : State} (awake : s.inReset = false) (event : SceneEvent s t) : Event s t
  | track {t : State} (awake : s.inReset = false) (event : TrackEvent s t) : Event s t
  | build {t : State} (awake : s.inReset = false) (event : BuildEvent s t) : Event s t
  | delivery {t : State} (awake : s.inReset = false) (event : DeliveryEvent s t) : Event s t
  | link {t : State} (l : Link) (awake : s.inReset = false) (event : LinkEvent l s t) : Event s t
  | condition {t : State} (awake : s.inReset = false) (event : ConditionEvent s t) : Event s t
  | port {t : State} (awake : s.inReset = false) (event : PortEvent s t) : Event s t
  | request {t : State} (f : UpFrame) (rest : List UpFrame) (takes : Takes s f rest)
      (effect : CommandEffect (afterTaking rest s) t) (status : Status) (data : List Byte) (restart : Bool) :
      Event s (answered f status data restart t)

/-! ## What a request comes to -/

/-- LOAD_TABLE changes nothing, or writes its entries into the live or the staged copy (R171). -/
theorem carryLoadTable_effect (args : List Byte) (s : State) : CommandEffect s (carryLoadTable args s).state := by
  unfold carryLoadTable
  dsimp only
  split
  case h_1 => exact .nothing
  case h_2 id _ =>
    split
    case isFalse => exact .nothing
    case isTrue =>
      unfold loadEntries
      split
      case h_1 config =>
        unfold loadLive
        dsimp only
        split
        case h_1 => exact .nothing
        case h_2 t written => exact .loadLive id _ _ t config written
      case h_2 run =>
        split
        · exact .nothing
        split
        case isTrue => exact .nothing
        case isFalse free =>
          unfold loadStaged
          split
          case h_1 => exact .nothing
          case h_2 t written => exact .loadStaged id _ _ t run (by simpa using free) written

/-- COMMIT_TABLES changes nothing, makes the commit pending, or drops a staging area that fails (R173). -/
theorem carryCommitTables_effect (args : List Byte) (s : State) :
    CommandEffect s (carryCommitTables args s).state := by
  unfold carryCommitTables
  split
  · exact .nothing
  rename_i run
  split
  · exact .nothing
  rename_i free
  split
  · exact .nothing
  split
  case h_1 => exact .commit (by cases h : s.mu.config <;> simp_all)
  case h_2 => exact .rejectCommit (by simpa using free)

/-- READ_STATISTICS changes nothing, or clears a run of one group's counters (R168). -/
theorem carryReadStatistics_effect (args : List Byte) (s : State) :
    CommandEffect s (carryReadStatistics args s).state := by
  unfold carryReadStatistics
  dsimp only
  split
  case h_1 g clear _ _ =>
    split
    case isFalse => exact .nothing
    case isTrue =>
      cases clear
      case false => exact .nothing
      case true => exact .clearStatistics g _ _
  case h_2 => exact .nothing
  case h_3 => exact .nothing

/-- READ_STATE changes nothing (R167). -/
theorem carryReadState_state (args : List Byte) (s : State) : (carryReadState args s).state = s := by
  unfold carryReadState
  split <;> rfl

/-- READ_TRACKS changes nothing (R59). -/
theorem carryReadTracks_state (args : List Byte) (s : State) : (carryReadTracks args s).state = s := by
  unfold carryReadTracks
  dsimp only
  split <;> rfl

/-- READ_MODULES changes nothing (R121). -/
theorem carryReadModules_state (args : List Byte) (s : State) : (carryReadModules args s).state = s := by
  unfold carryReadModules
  split <;> rfl

/-- READ_CONDITIONS changes nothing (R148). -/
theorem carryReadConditions_state (args : List Byte) (s : State) : (carryReadConditions args s).state = s := by
  unfold carryReadConditions
  dsimp only
  split <;> rfl

/-- READ_TABLE changes nothing (R172). -/
theorem carryReadTable_state (args : List Byte) (s : State) : (carryReadTable args s).state = s := by
  unfold carryReadTable
  dsimp only
  split
  case h_1 =>
    split
    case isTrue =>
      unfold readCopy
      split
      · split <;> rfl
      · rfl
    case isFalse => rfl
  case h_2 => rfl
  case h_3 => rfl

/-- DISCARD_STAGED changes nothing, or empties the staging area (R173). -/
theorem carryDiscardStaged_effect (args : List Byte) (s : State) :
    CommandEffect s (carryDiscardStaged args s).state := by
  unfold carryDiscardStaged
  split
  case h_1 => exact .nothing
  case h_2 =>
    split
    case isTrue => exact .nothing
    case isFalse free => exact .discard (by simpa using free)

/-- ENTER_CONFIG is refused, or carried out (R175). -/
theorem carryEnterConfig_effect (args : List Byte) (s : State) :
    CommandEffect s (carryEnterConfig args s).state := by
  unfold carryEnterConfig
  split
  case isTrue => exact .enterConfig
  case isFalse => exact .nothing

/-- EXIT_CONFIG is refused, or carried out from CONFIG (R176). -/
theorem carryExitConfig_effect (args : List Byte) (s : State) :
    CommandEffect s (carryExitConfig args s).state := by
  unfold carryExitConfig
  split
  case h_1 => exact .nothing
  case h_2 config =>
    split
    case h_1 => exact .nothing
    case h_2 => exact .exitConfig config

/-- SET_ISOLATION is refused, or carried out (R110). -/
theorem carrySetIsolation_effect (args : List Byte) (s : State) :
    CommandEffect s (carrySetIsolation args s).state := by
  unfold carrySetIsolation
  split
  case h_1 => exact .nothing
  case h_2 on _ =>
    dsimp only [done, doneWith]
    exact .setIsolation on

/-- CLEAR_NOTICE is refused, or carried out (R147). -/
theorem carryClearNotice_effect (args : List Byte) (s : State) :
    CommandEffect s (carryClearNotice args s).state := by
  unfold carryClearNotice
  split
  case isTrue => exact .clearNotice args
  case isFalse => exact .nothing

/-- RECOVER of a condition is refused, with or without a count, or carried out (R142). -/
theorem carryRecoverCondition_effect (args : List Byte) (s : State) :
    CommandEffect s (carryRecoverCondition args s).state := by
  unfold carryRecoverCondition
  split
  case h_1 => exact .nothing
  case h_2 c _ =>
    split
    case isTrue => exact .refuseRecover
    case isFalse => exact .recoverCondition c

/-- RECOVER of a module is refused, or carried out on a slot that is not ABSENT (R111). -/
theorem carryRecoverModule_effect (args : List Byte) (s : State) :
    CommandEffect s (carryRecoverModule args s).state := by
  unfold carryRecoverModule
  split
  case h_1 l k _ _ =>
    split
    case isTrue => exact .nothing
    case isFalse present => exact .recoverModule l k present
  case h_2 => exact .nothing
  case h_3 => exact .nothing

/-- RESTART is refused, or becomes pending (R177). -/
theorem carryRestart_effect (args : List Byte) (s : State) : CommandEffect s (carryRestart args s).state := by
  unfold carryRestart
  split
  case h_1 => exact .nothing
  case h_2 => exact .restart

/-- A command that changes nothing has no effect. -/
theorem CommandEffect.ofEq {s t : State} (h : t = s) : CommandEffect s t := h ▸ .nothing

/-- A request is answered, or waits on and nothing changes (R165). -/
theorem takeRequest_event {s : State} (awake : s.inReset = false) (carry : Request → Option (State → Carried))
    (effect : ∀ r run t, carry r = some run → CommandEffect t (run t).state) : Event s (takeRequest carry s) := by
  unfold takeRequest
  split
  case h_1 => exact .unmoved
  case h_2 f rest waits =>
    split
    case h_1 run takes carries =>
      rw [reply_eq]
      obtain ⟨room, noRestart⟩ := Bool.and_eq_true_iff.mp takes
      exact .request f rest ⟨awake, waits, of_decide_eq_true room, by simpa using noRestart⟩
        (effect _ run _ carries) _ _ _
    case h_2 => exact .unmoved
    case h_3 => exact .unmoved

/-! ## What a command comes to -/

/-- The scene TU may take next stands first among its messages (assumption 5). -/
theorem nextScene_some {mail rest : List ToTu} {x : Scene} (h : nextScene mail = some (x, rest)) :
    mail = .scene x :: rest := by
  unfold nextScene at h
  split at h
  case h_1 => cases h; rfl
  case h_2 => cases h
  case h_3 => cases h


/-- A row that is taken while RESETN does not hold the part comes to its event, or to nothing. -/
theorem running_event {s : State} {f : State → State} (h : s.inReset = false → Event s (f s)) :
    ∃ t, running s f = .next t ∧ Event s t := by
  refine ⟨_, rfl, ?_⟩
  split
  case isTrue => exact .unmoved
  case isFalse awake => exact h (by simpa using awake)

/-- A row with an occasion comes to its event where the occasion holds, or to nothing (assumption 2). -/
theorem whenever_event {s : State} {f : State → State} {b : Bool}
    (h : s.inReset = false → b = true → Event s (f s)) : ∃ t, whenever b s f = .next t ∧ Event s t :=
  running_event fun awake => by
    split
    case isTrue holds => exact h awake holds
    case isFalse => exact .unmoved

/-- The row of one management command comes to an answer, or to nothing. -/
theorem takeCommand_event {s : State} (c : Command) {run : List Byte → State → Carried}
    (effect : ∀ args t, CommandEffect t (run args t).state) : ∃ t, takeCommand c run s = .next t ∧ Event s t := by
  refine running_event fun awake => takeRequest_event awake _ fun r run' t carries => ?_
  unfold forCommand at carries
  split at carries
  case h_1 args =>
    split at carries
    case isTrue =>
      obtain rfl := Option.some.inj carries
      exact effect args t
    case isFalse => cases carries
  case h_2 => cases carries

/-- A completed transmission starts the next, or is the reply after which a RESTART runs (R161, R177). -/
theorem upSent_event {s : State} (awake : s.inReset = false) {x : UpTx} (inHand : s.up.tx = some x) :
    Event s (upSent x s) := by
  by_cases restarts : x.kind = .reply true ∧ s.mu.restartPending = true
  case neg =>
    rw [upSent_eq restarts]
    exact .port awake (.sent x inHand)
  case pos =>
    have : upSent x s = restartReset s := by
      simp [upSent, restarts.1, restarts.2, restartReset, runReset]
    exact this ▸ .restart

/-- Every command answers a next state, and that state is what one of the events makes of the part. -/
theorem exec_event (c : Instr) (s : State) : ∃ t, exec c s = .next t ∧ Event s t := by
  cases c
  case powerOn a b => exact ⟨_, rfl, .reset .power a b⟩
  case resetPin a b => exact ⟨_, rfl, .reset .pin a b⟩
  case vehicleFrameTake => exact running_event fun awake => .vehicle awake .frame
  case stalenessTimerExpiry field => exact whenever_event fun awake _ => .vehicle awake (.staleness field)
  case spdEdge => exact running_event fun awake => .vehicle awake .edge
  case speedTimeoutExpiry => exact whenever_event fun awake _ => .vehicle awake .speedTimeout
  case steeringStep line =>
    cases awake : s.inReset
    case false => exact ⟨_, exec_steeringStep awake line, .vehicle awake (.step line)⟩
    case true =>
      cases line
      case sta => exact ⟨_, by simp [exec, execSteeringStep, running, awake, flipLine], .linesMove (!s.sta) s.stb⟩
      case stb => exact ⟨_, by simp [exec, execSteeringStep, running, awake, flipLine], .linesMove s.sta (!s.stb)⟩
  case phaseError =>
    cases awake : s.inReset
    case false => exact ⟨_, exec_phaseError awake, .vehicle awake .phaseError⟩
    case true => exact ⟨_, by simp [exec, execPhaseError, running, awake, flipLine], .linesMove (!s.sta) (!s.stb)⟩
  case vehicleParametersInForce =>
    exact whenever_event fun awake waits => .vehicle awake (.parameters (by simpa using waits))
  case objectFrameTake => exact whenever_event fun awake _ => .scene awake .frame
  case sceneTimerExpiry => exact whenever_event fun awake _ => .scene awake .timeout
  case externalSceneTear cause => exact whenever_event fun awake _ => .scene awake (.tear cause)
  case sceneTake =>
    dsimp only [exec, execSceneTake]
    refine running_event fun awake => ?_
    split
    case h_1 => exact .unmoved
    case h_2 x rest first => exact .track awake (.scene x rest (nextScene_some first))
  case holdTimerExpiry n => exact whenever_event fun awake _ => .track awake (.hold n)
  case sceneTimeoutAging => exact whenever_event fun awake _ => .track awake .aging
  case classPolicyInForce =>
    dsimp only [exec, execClassPolicyInForce]
    exact whenever_event fun awake _ => .track awake .policy
  case buildRefreshTimerExpiry => exact whenever_event fun awake _ => .build awake .refresh
  case buildCompletion =>
    dsimp only [exec, execBuildCompletion]
    refine running_event fun awake => ?_
    split
    case h_1 => exact .unmoved
    case h_2 b inFlight => exact .build awake (.completion b inFlight)
  case generationTake =>
    dsimp only [exec, execGenerationTake]
    refine running_event fun awake => ?_
    split
    case h_1 => exact .unmoved
    case h_2 g rest first => exact .delivery awake (.record g rest first)
  case blockAckTake l =>
    dsimp only [exec, execBlockAckTake]
    refine running_event fun awake => ?_
    split
    case h_1 => exact .unmoved
    case h_2 a _ => exact .delivery awake (.ack a)
  case brokenNoticeTake l =>
    dsimp only [exec, execBrokenNoticeTake]
    refine running_event fun awake => ?_
    split
    case h_1 => exact .unmoved
    case h_2 m _ => exact .delivery awake (.broken m)
  case applyTimerExpiry => exact whenever_event fun awake expired => .delivery awake (.timeout expired)
  case linkFrameReceive l bytes => exact running_event fun awake => .link l awake (.frame bytes)
  case replyTimerExpiry l k => exact whenever_event fun awake _ => .link l awake (.replyTimeout k)
  case pollTimerExpiry l => exact whenever_event fun awake _ => .link l awake .poll
  case wakeSequenceEnd l =>
    exact whenever_event fun awake waking => .link l awake (.wakeEnd (by simpa using waking))
  case linkTxComplete l =>
    dsimp only [exec, execLinkTxComplete]
    refine running_event fun awake => ?_
    split
    case h_1 f q sending => exact .link l awake (.sent f q sending)
    case h_2 => exact .unmoved
    case h_3 => exact .unmoved
  case levelRawReport c l =>
    dsimp only [exec, execLevelRawReport]
    refine running_event fun awake => ?_
    split
    case h_1 => exact .unmoved
    case h_2 x oldest => exact .condition awake (.report x (List.mem_of_find?_eq_some oldest))
  case conditionEvent c =>
    exact whenever_event fun awake waits => .condition awake (.event c (by simpa using waits))
  case persistenceTimerExpiry c => exact whenever_event fun awake expired => .condition awake (.persistence c expired)
  case levelRecoveryTimerExpiry c =>
    refine whenever_event fun awake holds => ?_
    obtain ⟨level, expired⟩ := Bool.and_eq_true_iff.mp holds
    exact .condition awake (.levelRecovery c (by simpa using level) expired)
  case eventRecoveryTimerExpiry c =>
    refine whenever_event fun awake holds => ?_
    obtain ⟨event, expired⟩ := Bool.and_eq_true_iff.mp holds
    exact .condition awake (.eventRecovery c (by simpa using event) expired)
  case conditionTableInForce =>
    dsimp only [exec, execConditionTableInForce]
    refine running_event fun awake => ?_
    split
    case h_1 => exact .unmoved
    case h_2 x rest first => exact .condition awake (.table x rest first)
  case upstreamFrameReceive began bytes =>
    refine whenever_event fun awake holds => ?_
    obtain ⟨attached, _⟩ := Bool.and_eq_true_iff.mp holds
    exact .port awake (.frame bytes (by simpa using attached))
  case detachedRecovery => exact whenever_event fun awake _ => .port awake .recovery
  case upstreamTxComplete =>
    dsimp only [exec, execUpstreamTxComplete]
    refine running_event fun awake => ?_
    split
    case h_1 => exact .unmoved
    case h_2 x inHand => exact upSent_event awake inHand
  case malformedRequest =>
    refine running_event fun awake => takeRequest_event awake _ fun r run t carries => ?_
    unfold carryMalformed at carries
    split at carries
    case h_1 => obtain rfl := Option.some.inj carries; exact .nothing
    case h_2 => cases carries
  case resetPinAsserted => exact ⟨_, rfl, .resetAsserted⟩
  case readInfo => exact takeCommand_event _ fun _ _ => .nothing
  case readState => exact takeCommand_event _ fun args t => .ofEq (carryReadState_state args t)
  case readTracks => exact takeCommand_event _ fun args t => .ofEq (carryReadTracks_state args t)
  case readModules => exact takeCommand_event _ fun args t => .ofEq (carryReadModules_state args t)
  case readConditions => exact takeCommand_event _ fun args t => .ofEq (carryReadConditions_state args t)
  case readStatistics => exact takeCommand_event _ fun args t => carryReadStatistics_effect args t
  case readTable => exact takeCommand_event _ fun args t => .ofEq (carryReadTable_state args t)
  case loadTable => exact takeCommand_event _ fun args t => carryLoadTable_effect args t
  case commitTables => exact takeCommand_event _ fun args t => carryCommitTables_effect args t
  case discardStaged => exact takeCommand_event _ fun args t => carryDiscardStaged_effect args t
  case enterConfig => exact takeCommand_event _ fun args t => carryEnterConfig_effect args t
  case exitConfig => exact takeCommand_event _ fun args t => carryExitConfig_effect args t
  case holdLow => exact takeCommand_event _ fun args t => .setHold true
  case releaseHold => exact takeCommand_event _ fun args t => .setHold false
  case setIsolation => exact takeCommand_event _ fun args t => carrySetIsolation_effect args t
  case setSteerZero => exact takeCommand_event _ fun args t => .steerZero
  case clearTracks => exact takeCommand_event _ fun args t => .clearTracks
  case clearNotice => exact takeCommand_event _ fun args t => carryClearNotice_effect args t
  case recoverCondition => exact takeCommand_event _ fun args t => carryRecoverCondition_effect args t
  case recoverModule => exact takeCommand_event _ fun args t => carryRecoverModule_effect args t
  case restart => exact takeCommand_event _ fun args t => carryRestart_effect args t

/-- What a step does: the clock moves on, or the command at the front is one event on the rest of the queue. -/
theorem step_event {s t : State} (h : step s = .next t) :
    t = { s with now := s.now + 1 } ∨ ∃ rest, Event { s with pending := rest } t := by
  unfold step at h
  split at h
  case h_1 => cases h; exact .inl rfl
  case h_2 c rest _ =>
    obtain ⟨u, next, event⟩ := exec_event c { s with pending := rest }
    rw [next] at h
    cases h
    exact .inr ⟨rest, event⟩

/-- What neither the clock nor the queue of commands decides and every event keeps, every step keeps. -/
theorem step_keeps {P : State → Prop} (clock : ∀ s n, P s → P { s with now := n })
    (queue : ∀ s q, P s → P { s with pending := q }) (event : ∀ s t, P s → Event s t → P t) (s t : State) (h : P s)
    (next : step s = .next t) : P t := by
  rcases step_event next with rfl | ⟨rest, e⟩
  · exact clock s _ h
  · exact event _ t (queue s rest h) e

/-! ## What the events of one block leave of the others -/

/-- An event of VSB leaves SA, TU, DU and CM. -/
theorem VehicleEvent.keeps {s t : State} (e : VehicleEvent s t) :
    t.sa = s.sa ∧ t.tu = s.tu ∧ t.du = s.du ∧ t.cm = s.cm ∧ t.inReset = s.inReset ∧ t.pending = s.pending := by
  cases e
  case frame =>
    unfold takeVehicleFrame
    split
    · simp
    · dsimp only
      split <;> simp
  case staleness => simp
  case edge => simp
  case speedTimeout => simp [expireSpeedTimeout]
  case step line => cases line <;> simp [flipLine]
  case phaseError => simp
  case parameters => simp [takeVehicleParameters]

/-- An event of SA leaves every block but itself and UP. -/
theorem SceneEvent.keeps {s t : State} (e : SceneEvent s t) :
    t.vsb = s.vsb ∧ t.tu = s.tu ∧ t.pb = s.pb ∧ t.links = s.links ∧ t.du = s.du ∧ t.cm = s.cm ∧ t.mu = s.mu
      ∧ t.inReset = s.inReset ∧ t.pending = s.pending := by
  cases e
  case frame =>
    unfold takeObjectFrame
    split
    · simp
    · dsimp only
      split <;> simp
  case timeout => simp [expireSceneTimer]
  case tear => simp [takeTear]

/-- An event of TU leaves VSB, DU, CM and UP, and the buffer of SA. -/
theorem TrackEvent.keeps {s t : State} (e : TrackEvent s t) :
    t.vsb = s.vsb ∧ t.du = s.du ∧ t.cm = s.cm ∧ t.up = s.up ∧ t.sa.buffer = s.sa.buffer
      ∧ t.inReset = s.inReset ∧ t.pending = s.pending := by
  cases e
  case scene =>
    unfold takeScene
    dsimp only
    split <;> simp
  case hold => simp [expireHold]
  case aging => simp [ageTracks]
  case policy => simp

/-- An event of PB leaves VSB, SA, TU, DU, CM and UP. -/
theorem BuildEvent.keeps {s t : State} (e : BuildEvent s t) :
    t.vsb = s.vsb ∧ t.sa = s.sa ∧ t.tu = s.tu ∧ t.du = s.du ∧ t.cm = s.cm ∧ t.up = s.up
      ∧ t.inReset = s.inReset ∧ t.pending = s.pending := by
  cases e
  case refresh => simp [expireRefresh]
  case completion =>
    unfold completeBuild
    dsimp only
    split <;> simp

/-- An event of DU leaves VSB, SA, TU, PB, CM, UP and MU. -/
theorem DeliveryEvent.keeps {s t : State} (e : DeliveryEvent s t) :
    t.vsb = s.vsb ∧ t.sa = s.sa ∧ t.tu = s.tu ∧ t.pb = s.pb ∧ t.cm = s.cm ∧ t.up = s.up ∧ t.mu = s.mu
      ∧ t.inReset = s.inReset ∧ t.pending = s.pending := by
  cases e
  case record =>
    unfold takeRecord
    split <;> simp
  case ack =>
    unfold takeAck
    split
    · simp
    · split
      · simp
      · split <;> simp
  case broken =>
    unfold takeBroken
    split
    · split <;> simp
    · simp
    · simp
  case timeout =>
    unfold expireApply
    split
    · have charged {β : Type} (g : State → β) (h : ∀ l k u, g (chargeMiss l k u) = g u) :=
        foldl_keeps g (fun u (m : Link × Slot) => chargeMiss m.1 m.2 u) (fun u m => h m.1 m.2 u)
      simp [abandon, charged]
    · simp

/-- An event of a link leaves VSB, SA and TU. -/
theorem LinkEvent.keeps {l : Link} {s t : State} (e : LinkEvent l s t) :
    t.vsb = s.vsb ∧ t.sa = s.sa ∧ t.tu = s.tu ∧ t.inReset = s.inReset ∧ t.pending = s.pending := by
  cases e
  case frame => simp
  case replyTimeout => simp
  case poll => simp [expirePoll]
  case wakeEnd => simp
  case sent => simp

/-- An event of CM leaves VSB, SA, TU and DU. -/
theorem ConditionEvent.keeps {s t : State} (e : ConditionEvent s t) :
    t.vsb = s.vsb ∧ t.sa = s.sa ∧ t.tu = s.tu ∧ t.du = s.du ∧ t.inReset = s.inReset ∧ t.pending = s.pending := by
  cases e
  case report => simp
  case event => simp [takeEvent]
  case persistence => simp
  case levelRecovery => simp
  case eventRecovery => simp
  case table x rest _ =>
    have relatched {β : Type} (g : State → β) (h : ∀ u c, g (relatch x u c) = g u) := foldl_keeps g (relatch x) h
    simp [takeConditionTable, relatched]

/-- An event of UP leaves VSB, SA, TU and DU. -/
theorem PortEvent.keeps {s t : State} (e : PortEvent s t) :
    t.vsb = s.vsb ∧ t.sa = s.sa ∧ t.tu = s.tu ∧ t.du = s.du ∧ t.inReset = s.inReset ∧ t.pending = s.pending := by
  cases e
  case frame => simp
  case recovery => simp [recoverPort]
  case sent => simp

end Sys2Proof.Machine

/-! Every command completes and keeps the queue of commands, and the delivery stays sound (R123 to R130). -/

namespace Sys2Proof.Machine

/-! ## The queue of commands and the reset line -/

/-- Carrying out a request leaves VSB's and TU's queue of commands, the clock and the reset line alone. -/
theorem CommandEffect.keeps {s t : State} (e : CommandEffect s t) :
    t.now = s.now ∧ t.inReset = s.inReset ∧ t.pending = s.pending := by
  cases e
  case clearStatistics g _ _ => cases g <;> simp [clearGroup]
  case clearNotice numbers =>
    unfold clearNotices
    dsimp only
    split <;> simp
  case exitConfig => simp [Machine.exitConfig]
  all_goals simp

/-- An answer leaves every block but UP and MU, and of MU all but its statistics. -/
theorem answered_keeps (f : UpFrame) (status : Status) (data : List Byte) (restart : Bool) (s : State) :
    let t := answered f status data restart s
    t.now = s.now ∧ t.inReset = s.inReset ∧ t.sta = s.sta ∧ t.stb = s.stb ∧ t.vsb = s.vsb ∧ t.sa = s.sa ∧ t.tu = s.tu
      ∧ t.pb = s.pb ∧ t.links = s.links ∧ t.du = s.du ∧ t.cm = s.cm ∧ t.mail = s.mail ∧ t.pending = s.pending
      ∧ t.mu = { s.mu with stats := t.mu.stats } :=
  ⟨rfl, rfl, rfl, rfl, rfl, rfl, rfl, rfl, rfl, rfl, rfl, rfl, rfl, rfl⟩

/-- Every event leaves the commands that wait. -/
theorem Event.keeps_pending {s t : State} (e : Event s t) : t.pending = s.pending := by
  cases e
  case unmoved | linesMove | reset | restart | resetAsserted => rfl
  case vehicle e => simp [e.keeps]
  case scene e => simp [e.keeps]
  case track e => simp [e.keeps]
  case build e => simp [e.keeps]
  case delivery e => simp [e.keeps]
  case link e => simp [e.keeps]
  case condition e => simp [e.keeps]
  case port e => simp [e.keeps]
  case request u f rest takes effect _ _ _ =>
    obtain ⟨_, _, pending⟩ := effect.keeps
    exact pending

/-- Settles O2: each command is one event, and no event touches the queue of commands. -/
theorem everyCommandCompletesAndKeepsTheQueue : Obligations.EveryCommandCompletesAndKeepsTheQueue := by
  intro c s
  obtain ⟨t, next, event⟩ := exec_event c s
  exact ⟨t, next, event.keeps_pending⟩

/-! ## The delivery (R123 to R130) -/

/-- The soundness of a delivery is a matter of DU's slots, ack set and apply timer. -/
theorem DeliverySound.congr {s t : State} (h : DeliverySound s) (delivering : t.du.delivering = s.du.delivering)
    (waiting : t.du.waiting = s.du.waiting) (ackSet : t.du.ackSet = s.du.ackSet)
    (applyTimer : t.du.applyTimer = s.du.applyTimer) : DeliverySound t := by
  unfold DeliverySound
  rw [delivering, waiting, ackSet, applyTimer]
  exact h

/-- With the same DU the delivery is as sound as it was. -/
theorem DeliverySound.ofDu {s t : State} (h : DeliverySound s) (du : t.du = s.du) : DeliverySound t :=
  h.congr (du ▸ rfl) (du ▸ rfl) (du ▸ rfl) (du ▸ rfl)

/-- While a generation is being delivered, what waits is no part of the delivery's soundness (R123). -/
theorem DeliverySound.waits {s : State} (h : DeliverySound s) (busy : s.du.delivering ≠ none)
    (waiting : Option GenRecord) (stats : Row 9 Nat) :
    DeliverySound { s with du := { s.du with waiting := waiting, stats := stats } } := by
  obtain ⟨nodup, agrees⟩ := h
  refine ⟨nodup, ?_⟩
  rcases delivering : s.du.delivering with _ | ⟨g, ph⟩
  · exact absurd delivering busy
  · simp only [delivering] at agrees ⊢
    cases ph <;> exact agrees

/-- The ack set a delivery starts with holds no member twice (R124). -/
theorem activeModules_nodup (links : Both Slc) : (activeModules links).Nodup := by
  have slots : allSlots.Nodup := by decide
  have slotsOf (l : Link) (p : Slot → Bool) : ((allSlots.filter p).map fun k => (l, k)).Nodup :=
    (slots.filter p).map fun a b h => (Prod.mk.inj h).2
  simp only [activeModules, List.flatMap_cons, List.flatMap_nil, List.append_nil]
  refine List.nodup_append.mpr ⟨slotsOf .left _, slotsOf .right _, fun a ha b hb => ?_⟩
  obtain ⟨_, _, rfl⟩ := List.mem_map.mp ha
  obtain ⟨_, _, rfl⟩ := List.mem_map.mp hb
  simp

/-- A delivery started with nothing waiting is sound, whether it finds a module or not (R124). -/
theorem startDelivery_sound {s : State} (free : s.du.waiting = none) (g : GenRecord) :
    DeliverySound (startDelivery g s) := by
  by_cases unmanned : activeModules s.links = []
  case pos =>
    rw [startDelivery_abandons unmanned]
    exact ⟨List.nodup_nil, rfl, rfl, free⟩
  case neg =>
    rw [startDelivery_delivers unmanned]
    exact ⟨activeModules_nodup s.links, unmanned, rfl⟩

/-- The end of a delivery leaves a sound one, whatever stood before (R123). -/
theorem endDelivery_sound (s : State) : DeliverySound (endDelivery s) := by
  cases waits : s.du.waiting
  case none =>
    rw [endDelivery_empties waits]
    exact ⟨List.nodup_nil, rfl, rfl, rfl⟩
  case some g =>
    rw [endDelivery_starts waits]
    exact startDelivery_sound rfl g

/-- In phase BLOCKS, and only there, the ack set has members. -/
theorem DeliverySound.phase_of_mem {s : State} (h : DeliverySound s) {g : GenRecord} {ph : Phase}
    (delivering : s.du.delivering = some (g, ph)) {m : Link × Slot} (member : m ∈ s.du.ackSet) : ph = .blocks := by
  cases ph
  case blocks => rfl
  case applying =>
    obtain ⟨_, agrees⟩ := h
    simp only [delivering] at agrees
    simp [agrees.1] at member

/-- A member leaving the ack set in phase BLOCKS keeps the delivery sound (R126 to R128). -/
theorem leaveAckSet_sound {s : State} (h : DeliverySound s) {g : GenRecord}
    (delivering : s.du.delivering = some (g, .blocks)) (l : Link) (k : Slot) : DeliverySound (leaveAckSet g l k s) := by
  obtain ⟨nodup, agrees⟩ := h
  simp only [delivering] at agrees
  have rest_nodup := nodup.filter fun m => decide (m ≠ (l, k))
  unfold leaveAckSet
  dsimp only
  split
  case isTrue empty =>
    rw [List.isEmpty_iff] at empty
    rw [empty]
    exact ⟨List.nodup_nil, rfl, rfl⟩
  case isFalse nonempty =>
    refine ⟨rest_nodup, ?_⟩
    simp only [delivering]
    exact ⟨fun empty => nonempty (List.isEmpty_iff.mpr empty), agrees.2⟩

/-- Taking a record keeps the delivery sound: it starts one, or waits (R123). -/
theorem takeRecord_sound {s : State} (h : DeliverySound s) (g : GenRecord) : DeliverySound (takeRecord g s) := by
  by_cases idle : s.du.delivering = none
  case pos =>
    obtain ⟨_, agrees⟩ := h
    simp only [idle] at agrees
    rw [takeRecord_idle idle]
    exact startDelivery_sound agrees.2.2 g
  case neg =>
    by_cases free : s.du.waiting = none
    case pos =>
      rw [takeRecord_waits idle free]
      exact h.waits idle _ _
    case neg =>
      rw [takeRecord_supersedes idle free]
      exact h.waits idle _ _

/-- Taking an acknowledgement keeps the delivery sound (R126). -/
theorem takeAck_sound {s : State} (h : DeliverySound s) (a : Ack) : DeliverySound (takeAck a s) := by
  unfold takeAck
  split
  case h_1 => exact h
  case h_2 g ph delivering =>
    split
    case isTrue => exact h
    case isFalse =>
      split
      case isTrue member =>
        obtain rfl := h.phase_of_mem delivering (by simpa using member)
        exact leaveAckSet_sound (s := countDelivery Stat.duAcks s) h delivering a.link a.slot
      case isFalse => exact h

/-- Taking a BROKEN notice keeps the delivery sound (R127). -/
theorem takeBroken_sound {s : State} (h : DeliverySound s) (l : Link) (k : Slot) :
    DeliverySound (takeBroken l k s) := by
  unfold takeBroken
  split
  case h_1 g delivering =>
    split
    case isTrue => exact leaveAckSet_sound (s := countDelivery Stat.duBrokenDrops s) h delivering l k
    case isFalse => exact h
  case h_2 => exact h
  case h_3 => exact h

/-- The apply timer's expiry keeps the delivery sound: it ends it (R130). -/
theorem expireApply_sound {s : State} (h : DeliverySound s) : DeliverySound (expireApply s) := by
  unfold expireApply
  split
  case h_1 => exact endDelivery_sound _
  case h_2 idle =>
    obtain ⟨nodup, agrees⟩ := h
    refine ⟨nodup, ?_⟩
    simp only [idle] at agrees ⊢
    exact ⟨agrees.1, trivial, agrees.2.2⟩

/-- An APPLY transmitted keeps the delivery sound: it ends it, or waits for the other link (R129). -/
theorem applyTransmitted_sound {s : State} (h : DeliverySound s) (l : Link) :
    DeliverySound (applyTransmitted l s) := by
  unfold applyTransmitted
  dsimp only
  split
  case h_1 =>
    split
    case isTrue => exact endDelivery_sound _
    case isFalse => exact h
  case h_2 => exact h
  case h_3 => exact h

/-- A completed transmission keeps the delivery sound, whatever frame it was (R106, R113, R114, R129). -/
theorem frameSent_sound {s : State} (h : DeliverySound s) (l : Link) (f : LinkFrame) :
    DeliverySound (frameSent l f s) := by
  unfold frameSent
  split
  case h_2 => exact applyTransmitted_sound h l
  all_goals exact h.ofDu (by simp)

/-- An event of DU keeps its delivery sound (R123 to R130). -/
theorem DeliveryEvent.keeps_delivery {s t : State} (h : DeliverySound s) (e : DeliveryEvent s t) :
    DeliverySound t := by
  cases e
  case record g rest _ => refine takeRecord_sound ?_ g; exact h.ofDu rfl
  case ack a => refine takeAck_sound ?_ a; exact h.ofDu rfl
  case broken m => refine takeBroken_sound ?_ m.1 m.2; exact h.ofDu rfl
  case timeout => exact expireApply_sound h

/-- An event of a link keeps the delivery sound: only an APPLY transmitted touches it (R129). -/
theorem LinkEvent.keeps_delivery {l : Link} {s t : State} (h : DeliverySound s) (e : LinkEvent l s t) :
    DeliverySound t := by
  cases e
  case sent f q _ => exact frameSent_sound h l f
  all_goals exact h.ofDu (by simp [expirePoll])

/-- Carrying out a request keeps the delivery sound: of DU it touches no more than the statistics. -/
theorem CommandEffect.keeps_delivery {s t : State} (h : DeliverySound s) (e : CommandEffect s t) :
    DeliverySound t := by
  cases e
  case clearStatistics g _ _ => cases g <;> exact h
  case clearNotice numbers =>
    unfold clearNotices
    dsimp only
    split
    · exact h
    · exact h
  case exitConfig => exact h.ofDu (by simp [Machine.exitConfig])
  all_goals exact h.ofDu (by simp)

/-- Every event keeps the delivery sound. -/
theorem Event.keeps_delivery {s t : State} (h : DeliverySound s) (e : Event s t) : DeliverySound t := by
  cases e
  case unmoved | linesMove | resetAsserted => exact h
  case reset | restart => exact ⟨List.nodup_nil, rfl, rfl, rfl⟩
  case vehicle e => obtain ⟨_, _, du, _⟩ := e.keeps; exact h.ofDu du
  case scene e => obtain ⟨_, _, _, _, du, _⟩ := e.keeps; exact h.ofDu du
  case track e => obtain ⟨_, du, _⟩ := e.keeps; exact h.ofDu du
  case build e => obtain ⟨_, _, _, du, _⟩ := e.keeps; exact h.ofDu du
  case delivery e => exact e.keeps_delivery h
  case link e => exact e.keeps_delivery h
  case condition e => obtain ⟨_, _, _, du, _⟩ := e.keeps; exact h.ofDu du
  case port e => obtain ⟨_, _, _, du, _⟩ := e.keeps; exact h.ofDu du
  case request u f rest takes effect _ _ _ =>
    exact (effect.keeps_delivery (h.ofDu (t := afterTaking rest s) rfl)).ofDu rfl

/-- Settles O57: by the cases of what a step can do. -/
theorem deliveryStaysSound : Obligations.DeliveryStaysSound :=
  step_keeps (fun _ _ h => h) (fun _ _ h => h) fun _ _ h e => e.keeps_delivery h

end Sys2Proof.Machine

/-! The Track Unit: how pass 1 and pass 3 treat a report, what the settling and the scene-timeout changes leave in each
entry and each counter, and that keys stay distinct and hold timers with COASTING tracks (chapter 3). -/

namespace Sys2Proof.Machine

/-! ## Pass 1 (R41) -/

/-- Pass 1 finds no entry just where none holds the report's id and class (R41). -/
theorem findById_eq_none_iff (tracks : Row 24 (Option Track)) (x : Report) :
    findById tracks x = none ↔ ∀ n t, tracks.get n = some t → ¬(t.id = x.id ∧ t.cls = x.cls) := by
  simp only [findById, List.find?_eq_none, allTracks, List.mem_finRange, true_implies]
  refine forall_congr' fun n => ?_
  cases tracks.get n <;> simp

/-- An entry that pass 1 finds holds the report's id and class (R41). -/
theorem findById_holds {tracks : Row 24 (Option Track)} {x : Report} {n : TrackNo} (h : findById tracks x = some n) :
    ∃ t, tracks.get n = some t ∧ t.id = x.id ∧ t.cls = x.cls := by
  have found := List.find?_some h
  cases held : tracks.get n
  case none => simp [held] at found
  case some t =>
    simp only [held, Bool.and_eq_true, decide_eq_true_eq] at found
    exact ⟨t, rfl, found⟩

/-- A report whose id and class no entry holds is left for pass 2 (R41). -/
theorem passOne_left {r : AssocRules} {a : Assoc} {x : Report} (absent : findById a.tracks x = none)
    (left : List Report) : passOne r (left, a) x = (left ++ [x], a) := by
  simp only [passOne, absent]

/-- A report whose id and class an entry holds is matched to it and counted (R41). -/
theorem passOne_matched {r : AssocRules} {a : Assoc} {x : Report} {n : TrackNo} {t : Track}
    (found : findById a.tracks x = some n) (held : a.tracks.get n = some t) (left : List Report) :
    passOne r (left, a) x = (left, countAssoc Stat.trkIdMatches (matchEntry r n t x a)) := by
  simp only [passOne, found, held]

/-- The lamp field's edges are those of either lamp's outermost columns (R43). -/
theorem whollyOutside_iff (m : Both SegMapEntry) (left right : Int) : whollyOutside m left right = true
    ↔ (∀ l, 2 * right < 2 * (m.get l).origin - (m.get l).columnPitch)
      ∨ ∀ l, 2 * (m.get l).origin + 47 * (m.get l).columnPitch ≤ 2 * left := by
  have both (p : Link → Prop) : (∀ l, p l) ↔ p .left ∧ p .right :=
    ⟨fun h => ⟨h _, h _⟩, fun h l => by cases l; exacts [h.1, h.2]⟩
  simp only [both, whollyOutside, fieldLeft2, fieldRight2, columnLo2, columnHi2, Bool.or_eq_true, decide_eq_true_eq,
    lt_min_iff, max_le_iff, Both.get_left, Both.get_right]
  omega

/-- Settles O25: pass 1 leaves a report that no entry holds and matches one that an entry holds, and a match updates or
frees the entry by the lamp field. -/
theorem matchUpdatesOrFreesTheTrack : Obligations.MatchUpdatesOrFreesTheTrack := by
  refine ⟨fun r left a x => ⟨fun absent => ?left, fun n t held id cls unique => ?found⟩, whollyOutside_iff⟩
  case left => exact passOne_left ((findById_eq_none_iff a.tracks x).mpr absent) left
  case found =>
    have matched := passOne_matched (r := r) (findById_some a.tracks x n t held id cls unique) held left
    refine ⟨fun outside => ?exits, fun inside => ?updated⟩
    case exits => rw [matched, matchEntry_outside n t a outside, countAssoc, countAssoc, freeEntry]
    case updated => rw [matched, matchEntry_inside n t a inside, countAssoc, matchedTrack]

/-! ## Pass 3 (R45 to R47) -/

/-- In the numbers in rising order, the first that passes is the least. -/
theorem find?_finRange_least {k : Nat} {p : Fin k → Bool} {n : Fin k} (passes : p n = true)
    (least : ∀ m, p m = true → n ≤ m) : (List.finRange k).find? p = some n := by
  cases found : (List.finRange k).find? p
  case none => exact absurd passes (by simpa using List.find?_eq_none.mp found n (List.mem_finRange n))
  case some m =>
    obtain ⟨passesM, before, after, split, earlier⟩ := List.find?_eq_some_iff_append.mp found
    have sorted : (before ++ m :: after).Pairwise (· < ·) := split ▸ List.pairwise_lt_finRange k
    have place : n ∈ before ++ m :: after := split ▸ List.mem_finRange n
    rcases List.mem_append.mp place with inBefore | inRest
    · exact absurd passes (by simpa using earlier n inBefore)
    · rcases List.mem_cons.mp inRest with rfl | inAfter
      · rfl
      · have later : m < n := (List.pairwise_cons.mp (List.pairwise_append.mp sorted).2.1).1 n inAfter
        exact absurd (least m passesM) (not_le.mpr later)

/-- The lowest FREE entry (R45). -/
theorem lowestFree_least {tracks : Row 24 (Option Track)} {n : TrackNo} (free : tracks.get n = none)
    (least : ∀ m, tracks.get m = none → n ≤ m) : lowestFree tracks = some n :=
  find?_finRange_least (by simp [free]) fun m passes => least m (by simpa using passes)

/-- A full table has no lowest FREE entry. -/
theorem lowestFree_full {tracks : Row 24 (Option Track)} (full : ∀ n, tracks.get n ≠ none) :
    lowestFree tracks = none := by
  simpa [lowestFree, List.find?_eq_none, Option.isNone_iff_eq_none] using fun n _ => full n

/-- An entry holds a victim for a report of this glare priority (R46). -/
def Victim (policy : Row 6 ClassPolicy) (priority : Nat) (tracks : Row 24 (Option Track)) (n : TrackNo)
    (t : Track) : Prop :=
  tracks.get n = some t ∧ t.state = .tentative ∧ (policyOf policy t.cls).priority < priority

/-- The victims in rising order of their numbers, each with its glare priority. -/
def victims (policy : Row 6 ClassPolicy) (priority : Nat) (tracks : Row 24 (Option Track)) : List (TrackNo × Nat) :=
  allTracks.filterMap fun n => (victimPriority policy priority (tracks.get n)).map fun p => (n, p)

/-- A victim's glare priority is given just where the entry holds a victim. -/
theorem victimPriority_eq_some (policy : Row 6 ClassPolicy) (priority : Nat) (tracks : Row 24 (Option Track))
    (n : TrackNo) (p : Nat) : victimPriority policy priority (tracks.get n) = some p
      ↔ ∃ t, Victim policy priority tracks n t ∧ p = (policyOf policy t.cls).priority := by
  unfold Victim
  cases tracks.get n
  case none => simp [victimPriority]
  case some t =>
    by_cases state : t.state = .tentative <;> by_cases lower : (policyOf policy t.cls).priority < priority <;>
      simp [victimPriority, state, lower, eq_comm (a := p)]

/-- The list of victims holds the victims. -/
theorem mem_victims_iff (policy : Row 6 ClassPolicy) (priority : Nat) (tracks : Row 24 (Option Track)) (n : TrackNo)
    (p : Nat) : (n, p) ∈ victims policy priority tracks
      ↔ ∃ t, Victim policy priority tracks n t ∧ p = (policyOf policy t.cls).priority := by
  simp only [victims, List.mem_filterMap, Option.map_eq_some_iff, victimPriority_eq_some]
  constructor
  · rintro ⟨_, _, _, victim, same⟩
    cases same
    exact victim
  · exact fun victim => ⟨n, List.mem_finRange n, p, victim, rfl⟩

/-- They stand in rising order of their numbers. -/
theorem victims_sorted (policy : Row 6 ClassPolicy) (priority : Nat) (tracks : Row 24 (Option Track)) :
    (victims policy priority tracks).Pairwise fun c d => c.1 < d.1 := by
  refine finRange_sorted.filterMap _ fun i j lt c hc d hd => ?_
  obtain ⟨_, _, rfl⟩ := Option.map_eq_some_iff.mp hc
  obtain ⟨_, _, rfl⟩ := Option.map_eq_some_iff.mp hd
  exact lt

/-- The victim is the first of lowest glare priority (R46). -/
theorem findVictim_eq (policy : Row 6 ClassPolicy) (priority : Nat) (tracks : Row 24 (Option Track)) :
    findVictim policy priority tracks
      = (victims policy priority tracks).foldl (pickFirst fun c => -(c.2 : Int)) none := by
  rw [findVictim, victims]
  congr 1
  funext best c
  cases best <;> simp [pickFirst]

/-- With no victim there is none to find. -/
theorem findVictim_none {policy : Row 6 ClassPolicy} {priority : Nat} {tracks : Row 24 (Option Track)}
    (none_ : ∀ n t, ¬Victim policy priority tracks n t) : findVictim policy priority tracks = none := by
  rw [findVictim_eq, foldl_pickFirst_eq_none_iff, List.eq_nil_iff_forall_not_mem]
  rintro ⟨n, p⟩ mem
  obtain ⟨t, victim, _⟩ := (mem_victims_iff policy priority tracks n p).mp mem
  exact none_ n t victim

/-- The victim of lowest glare priority and, among equals, lowest number is the one found (R46). -/
theorem findVictim_least {policy : Row 6 ClassPolicy} {priority : Nat} {tracks : Row 24 (Option Track)} {n : TrackNo}
    {t : Track} (victim : Victim policy priority tracks n t)
    (least : ∀ m u, Victim policy priority tracks m u →
      (policyOf policy t.cls).priority < (policyOf policy u.cls).priority
        ∨ ((policyOf policy t.cls).priority = (policyOf policy u.cls).priority ∧ n ≤ m)) :
    ∃ p, findVictim policy priority tracks = some (n, p) := by
  have mem := (mem_victims_iff policy priority tracks n _).mpr ⟨t, victim, rfl⟩
  rw [findVictim_eq]
  cases found : (victims policy priority tracks).foldl (pickFirst fun c => -(c.2 : Int)) none
  case none =>
    rw [foldl_pickFirst_eq_none_iff] at found
    rw [found] at mem
    cases mem
  case some c =>
    obtain ⟨m, p⟩ := c
    obtain ⟨memM, best⟩ := foldl_pickFirst_sorted (victims_sorted policy priority tracks) found
    obtain ⟨u, victimM, rfl⟩ := (mem_victims_iff policy priority tracks m p).mp memM
    have fromBest := best _ mem
    have fromLeast := least m u victimM
    suffices m = n from ⟨_, by rw [this]⟩
    rcases fromBest with less | ⟨_, same | before⟩
    · rcases fromLeast with h | ⟨h, _⟩ <;> (dsimp only at less; omega)
    · exact (Prod.mk.inj same).1.symm
    · rcases fromLeast with h | ⟨_, h⟩
      · dsimp only at *; omega
      · exact absurd before (not_lt.mpr h)

/-- Settles O27: outside the field, into the lowest FREE entry, in the victim's place, or dropped. -/
theorem leftoverReportsMakeTracks : Obligations.LeftoverReportsMakeTracks := by
  refine fun r a x => ⟨fun outside => ?outside, fun inside => ⟨fun n free least => ?created, fun full =>
    ⟨fun n t victim least => ?replaced, fun noVictim => ?dropped⟩⟩⟩
  case outside => rw [passThree, if_pos outside, countAssoc]
  case created =>
    rw [passThree, if_neg (Bool.eq_false_iff.mp inside), lowestFree_least free least]
    rfl
  case replaced =>
    obtain ⟨p, found⟩ := findVictim_least victim least
    rw [passThree, if_neg (Bool.eq_false_iff.mp inside), lowestFree_full full, found]
    rfl
  case dropped =>
    rw [passThree, if_neg (Bool.eq_false_iff.mp inside), lowestFree_full full, findVictim_none noVictim]
    rfl

/-! ## Going through the table entry by entry (R48, R56) -/

section Entries

variable {f : Assoc → TrackNo → Assoc} {change : TrackNo → Track → Option Track} {kept : Assoc → Prop}

/-- A pass over distinct entries that treats each by what stands there leaves in each what it makes of that. -/
theorem foldl_entries_tracks (keeps : ∀ a n, kept a → kept (f a n))
    (here : ∀ a n, kept a → (f a n).tracks.get n = (a.tracks.get n).bind (change n))
    (elsewhere : ∀ a n m, m ≠ n → (f a n).tracks.get m = a.tracks.get m) {l : List TrackNo} (nodup : l.Nodup)
    {a : Assoc} (start : kept a) (m : TrackNo) :
    (l.foldl f a).tracks.get m = if m ∈ l then (a.tracks.get m).bind (change m) else a.tracks.get m := by
  induction l generalizing a with
  | nil => rfl
  | cons n l ih =>
    obtain ⟨fresh, nodup⟩ := List.nodup_cons.mp nodup
    rw [List.foldl_cons, ih nodup (keeps a n start)]
    by_cases same : m = n
    case pos =>
      subst same
      rw [if_neg fresh, if_pos List.mem_cons_self, here a m start]
    case neg => simp only [elsewhere a n m same, List.mem_cons, same, false_or]

/-- Such a pass counts, in a counter, each entry whose track the counter is about. -/
theorem foldl_entries_count (keeps : ∀ a n, kept a → kept (f a n))
    (elsewhere : ∀ a n m, m ≠ n → (f a n).tracks.get m = a.tracks.get m) {j : Fin 14} {about : TrackNo → Track → Bool}
    (counts : ∀ a n, kept a →
      (f a n).stats.get j = if (a.tracks.get n).any (about n) then bump (a.stats.get j) else a.stats.get j)
    {l : List TrackNo} (nodup : l.Nodup) {a : Assoc} (start : kept a) :
    (l.foldl f a).stats.get j = bump^[l.countP fun n => (a.tracks.get n).any (about n)] (a.stats.get j) := by
  induction l generalizing a with
  | nil => rfl
  | cons n l ih =>
    obtain ⟨fresh, nodup⟩ := List.nodup_cons.mp nodup
    have others : l.countP (fun m => ((f a n).tracks.get m).any (about m))
        = l.countP fun m => (a.tracks.get m).any (about m) := by
      refine List.countP_congr fun m hm => ?_
      rw [elsewhere a n m (ne_of_mem_of_not_mem hm fresh)]
    rw [List.foldl_cons, ih nodup (keeps a n start), counts a n start, others, bump_iterate_if, List.countP_cons]

/-- A counter that no step touches keeps its value. -/
theorem foldl_entries_uncounted {j : Fin 14} (untouched : ∀ a n, (f a n).stats.get j = a.stats.get j)
    (l : List TrackNo) (a : Assoc) : (l.foldl f a).stats.get j = a.stats.get j := by
  induction l generalizing a with
  | nil => rfl
  | cons n l ih => rw [List.foldl_cons, ih, untouched]

end Entries

/-- What is kept along the list by every step is kept by the pass. -/
theorem foldl_entries_keeps {kept : Assoc → Prop} {f : Assoc → TrackNo → Assoc}
    (keeps : ∀ a n, kept a → kept (f a n)) (l : List TrackNo) {a : Assoc} (start : kept a) : kept (l.foldl f a) := by
  induction l generalizing a with
  | nil => exact start
  | cons n l ih => exact ih (keeps a n start)

/-- The twenty-four entries are distinct. -/
theorem allTracks_nodup : allTracks.Nodup := List.nodup_finRange 24

section Settling

variable (r : AssocRules) (truncated : Bool)

/-- Settling one entry leaves the others, and which entries are matched. -/
theorem settleEntry_elsewhere (a : Assoc) (n m : TrackNo) (h : m ≠ n) :
    (settleEntry r truncated a n).tracks.get m = a.tracks.get m :=
  ((settleEntry_at r truncated a n).2 m h).1

/-- Settling one entry leaves which entries are matched and whether a report was dropped. -/
theorem settleEntry_keeps (a : Assoc) (n : TrackNo) :
    (settleEntry r truncated a n).matched = a.matched ∧ (settleEntry r truncated a n).dropped = a.dropped :=
  (settleEntry_counts r truncated a n).2

/-- The settling leaves in each entry what R48 to R52 make of the track that stood there. -/
theorem settle_tracks (a : Assoc) (m : TrackNo) : (allTracks.foldl (settleEntry r truncated) a).tracks.get m
    = (a.tracks.get m).bind (settledTrack r truncated (a.matched.get m)) := by
  rw [foldl_entries_tracks (kept := fun b => b.matched = a.matched)
    (change := fun n => settledTrack r truncated (a.matched.get n))
    (fun b n same => (settleEntry_keeps r truncated b n).1.trans same)
    (fun b n same => same ▸ (settleEntry_at r truncated b n).1) (settleEntry_elsewhere r truncated) allTracks_nodup rfl,
    if_pos (show m ∈ allTracks from List.mem_finRange m)]

/-- The settling counts each track confirmed, each TENTATIVE one lost and each freed at hold time 0, and nothing else
(R48 to R50, R60). -/
theorem settle_stats (a : Assoc) (j : Fin 14) :
    let t := allTracks.foldl (settleEntry r truncated) a
    let count (p : TrackNo → Track → Bool) : Nat := allTracks.countP fun n => (a.tracks.get n).any (p n)
    t.stats.get j =
      if j = Stat.trkConfirms then bump^[count fun n x => a.matched.get n && decide (x.state = .tentative)
        && decide ((policyOf r.policy x.cls).confirmScenes ≤ x.hits)] (a.stats.get j)
      else if j = Stat.trkTentativeLost then
        bump^[count fun n x => !truncated && !a.matched.get n && decide (x.state = .tentative)] (a.stats.get j)
      else if j = Stat.trkHoldExpiries then bump^[count fun n x => !truncated && !a.matched.get n
        && decide (x.state = .confirmed) && decide ((policyOf r.policy x.cls).holdTime = 0)] (a.stats.get j)
      else a.stats.get j := by
  intro t count
  have counted {about : TrackNo → Track → Bool} (h : ∀ b n, b.matched = a.matched →
      (settleEntry r truncated b n).stats.get j
        = if (b.tracks.get n).any (about n) then bump (b.stats.get j) else b.stats.get j) :
      t.stats.get j = bump^[count about] (a.stats.get j) :=
    foldl_entries_count (kept := fun b => b.matched = a.matched)
      (fun b n same => (settleEntry_keeps r truncated b n).1.trans same) (settleEntry_elsewhere r truncated) h
      allTracks_nodup rfl
  split
  case isTrue confirms =>
    refine counted fun b n same => ?_
    rw [(settleEntry_counts r truncated b n).1, if_pos confirms, same]
  case isFalse notConfirms =>
    split
    case isTrue lost =>
      refine counted fun b n same => ?_
      rw [(settleEntry_counts r truncated b n).1, if_neg notConfirms, if_pos lost, same]
    case isFalse notLost =>
      split
      case isTrue out =>
        refine counted fun b n same => ?_
        rw [(settleEntry_counts r truncated b n).1, if_neg notConfirms, if_neg notLost, if_pos out, same]
      case isFalse notOut =>
        refine foldl_entries_uncounted (fun b n => ?_) allTracks a
        rw [(settleEntry_counts r truncated b n).1, if_neg notConfirms, if_neg notLost, if_neg notOut]

end Settling

/-- Settles O28: each entry is settled by what stood there, and each counter counts the entries it is about. -/
theorem settlingTreatsEachTrackByItsState : Obligations.SettlingTreatsEachTrackByItsState := by
  refine fun r truncated a => ⟨settle_tracks r truncated a, settle_stats r truncated a, ?_⟩
  exact foldl_entries_keeps (kept := fun b => b.matched = a.matched ∧ b.dropped = a.dropped)
    (fun b n same => (settleEntry_keeps r truncated b n).imp (·.trans same.1) (·.trans same.2)) allTracks ⟨rfl, rfl⟩

end Sys2Proof.Machine

/-! Hold timers, the scene-timeout changes and the taking of a scene at the Track Unit (R39, R54, R56), and the soundness
of the Track Table: distinct keys and hold timers with COASTING tracks (R35, R36). -/

namespace Sys2Proof.Machine

/-! ## The scene-timeout changes (R56) -/

/-- The scene-timeout changes leave in each entry what R56 makes of the track that stood there. -/
theorem ageTracks_tracks (s : State) (m : TrackNo) :
    (ageTracks s).tu.tracks.get m = (s.tu.tracks.get m).bind (agedTrack s) := by
  dsimp only [ageTracks]
  rw [foldl_entries_tracks (kept := fun _ => True) (change := fun _ => agedTrack s) (fun _ _ h => h)
    (fun b n _ => (ageEntry_at (assocRules s 0) s rfl rfl b n).1)
    (fun b n => (ageEntry_at (assocRules s 0) s rfl rfl b n).2.1) allTracks_nodup trivial,
    if_pos (show m ∈ allTracks from List.mem_finRange m)]

/-- They count themselves, each TENTATIVE track lost and each CONFIRMED one freed at hold time 0 (R56, R60). -/
theorem ageTracks_stats (s : State) (j : Fin 14) :
    let lost := allTracks.countP fun n => (s.tu.tracks.get n).any fun t => decide (t.state = .tentative)
    let out := allTracks.countP fun n => (s.tu.tracks.get n).any fun t =>
      decide (t.state = .confirmed) && decide ((policyOf s.mu.tables.classPolicy t.cls).holdTime = 0)
    (ageTracks s).tu.stats.get j =
      if j = Stat.trkStaleAgings then bump (s.tu.stats.get j)
      else if j = Stat.trkTentativeLost then bump^[lost] (s.tu.stats.get j)
      else if j = Stat.trkHoldExpiries then bump^[out] (s.tu.stats.get j)
      else s.tu.stats.get j := by
  intro lost out
  have aged := fun b n => (ageEntry_at (assocRules s 0) s rfl rfl b n).2
  have elsewhere := fun b n => (aged b n).1
  have counts := fun b n => (aged b n).2
  dsimp only [ageTracks]
  rw [bumpAt_get]
  by_cases lostCounter : j = Stat.trkTentativeLost
  case pos =>
    rw [if_neg (lostCounter ▸ by decide), if_neg (lostCounter ▸ by decide), if_pos lostCounter]
    exact foldl_entries_count (kept := fun _ => True) (about := fun _ t => decide (t.state = .tentative))
      (fun _ _ h => h) elsewhere (fun b n _ => by rw [counts, if_pos lostCounter]) allTracks_nodup trivial
  case neg =>
    by_cases outCounter : j = Stat.trkHoldExpiries
    case pos =>
      rw [if_neg (outCounter ▸ by decide), if_neg (outCounter ▸ by decide), if_neg lostCounter, if_pos outCounter]
      exact foldl_entries_count (kept := fun _ => True)
        (about := fun _ t => decide (t.state = .confirmed)
          && decide ((policyOf s.mu.tables.classPolicy t.cls).holdTime = 0))
        (fun _ _ h => h) elsewhere (fun b n _ => by rw [counts, if_neg lostCounter, if_pos outCounter])
        allTracks_nodup trivial
    case neg =>
      rw [if_neg lostCounter, if_neg outCounter]
      rw [foldl_entries_uncounted fun b n => by rw [counts, if_neg lostCounter, if_neg outCounter]]

/-- Settles O29: the expiry frees the entry with a trigger, and the scene-timeout changes go entry by entry. -/
theorem holdExpiryAndSceneTimeoutChanges : Obligations.HoldExpiryAndSceneTimeoutChanges := by
  refine ⟨fun s n t awake held expired => ?expiry, fun s awake waits => ?aging⟩
  case expiry =>
    have timer : due s.now (holdTimer s.tu n) = true := by rw [holdTimer, held]; exact expired
    exact whenever_holds awake timer (expireHold n)
  case aging =>
    refine ⟨ageTracks s, whenever_holds awake (by simpa using waits) ageTracks, ageTracks_tracks s,
      ageTracks_stats s, rfl⟩

/-! ## Taking a scene (R39) -/

/-- SCENE_TAKE takes the scene that stands first among the messages to TU. -/
theorem exec_sceneTake {s : State} (awake : s.inReset = false) {x : Scene} {rest : List ToTu}
    (first : s.mail.toTu = .scene x :: rest) :
    exec .sceneTake s = .next (takeScene x { s with mail := { s.mail with toTu := rest } }) := by
  change execSceneTake s = _
  simp only [execSceneTake, running_awake awake, first, nextScene]

/-- Settles O24: the five steps of the association in order, then what a taken scene leaves. -/
theorem sceneTakeAssociatesWholeAndTriggers : Obligations.SceneTakeAssociatesWholeAndTriggers := by
  intro s x rest awake first r strong weak start one two three a
  rw [exec_sceneTake awake first, takeScene_eq x _ a]
  simp only [associate, discardWeak_eq]
  rfl

/-! ## Distinct keys (R35) -/

/-- What tells two tracks apart: report id and class (R35). -/
def trackKey (t : Track) : Byte × ObjClass := (t.id, t.cls)

/-- No two entries hold tracks of the same key (R35). -/
def KeysApart (tracks : Row 24 (Option Track)) : Prop :=
  ∀ m n t u, tracks.get m = some t → tracks.get n = some u → trackKey t = trackKey u → m = n

/-- No entry holds a track of this key. -/
def KeyAbsent (tracks : Row 24 (Option Track)) (key : Byte × ObjClass) : Prop :=
  ∀ n t, tracks.get n = some t → trackKey t ≠ key

/-- Each entry of the second table is free, or holds a track of the key the first table holds there. -/
def KeysWithin (before after : Row 24 (Option Track)) : Prop :=
  ∀ n u, after.get n = some u → ∃ t, before.get n = some t ∧ trackKey t = trackKey u

/-- Keys stay apart in a table whose entries keep their keys or are freed. -/
theorem KeysApart.within {before after : Row 24 (Option Track)} (h : KeysApart before)
    (within : KeysWithin before after) : KeysApart after := by
  intro m n t u hm hn same
  obtain ⟨t', hm', keyT⟩ := within m t hm
  obtain ⟨u', hn', keyU⟩ := within n u hn
  exact h m n t' u' hm' hn' (keyT.trans (same.trans keyU.symm))

/-- A key that no entry held is held by none where entries keep their keys or are freed. -/
theorem KeyAbsent.within {before after : Row 24 (Option Track)} {key : Byte × ObjClass} (h : KeyAbsent before key)
    (within : KeysWithin before after) : KeyAbsent after key := by
  intro n u hn
  obtain ⟨t, held, same⟩ := within n u hn
  exact same ▸ h n t held

/-- Freeing an entry keeps the keys of the others. -/
theorem keysWithin_free (tracks : Row 24 (Option Track)) (n : TrackNo) : KeysWithin tracks (tracks.set n none) := by
  intro m u hm
  rw [Row.get_set] at hm
  split at hm
  · cases hm
  · exact ⟨u, hm, rfl⟩

/-- A track replaced by one of its own key keeps the keys of the table. -/
theorem keysWithin_set {tracks : Row 24 (Option Track)} {n : TrackNo} {t u : Track} (held : tracks.get n = some t)
    (same : trackKey t = trackKey u) : KeysWithin tracks (tracks.set n (some u)) := by
  intro m v hm
  rw [Row.get_set] at hm
  split at hm
  case isTrue place => cases hm; exact ⟨t, place ▸ held, same⟩
  case isFalse => exact ⟨v, hm, rfl⟩

/-- A track of a key that no entry held keeps the keys apart, wherever it is placed. -/
theorem KeysApart.set {tracks : Row 24 (Option Track)} (h : KeysApart tracks) {u : Track}
    (absent : KeyAbsent tracks (trackKey u)) (n : TrackNo) : KeysApart (tracks.set n (some u)) := by
  intro i j a b hi hj same
  rw [Row.get_set] at hi hj
  split at hi <;> split at hj
  case isTrue.isTrue hi' hj' => exact hi'.trans hj'.symm
  case isTrue.isFalse => cases hi; exact absurd same.symm (absent j b hj)
  case isFalse.isTrue => cases hj; exact absurd same (absent i a hi)
  case isFalse.isFalse => exact h i j a b hi hj same

/-- A key other than the placed track's stays absent. -/
theorem KeyAbsent.set {tracks : Row 24 (Option Track)} {key : Byte × ObjClass} (h : KeyAbsent tracks key) {u : Track}
    (other : trackKey u ≠ key) (n : TrackNo) : KeyAbsent (tracks.set n (some u)) key := by
  intro m v hm
  rw [Row.get_set] at hm
  split at hm
  · cases hm; exact other
  · exact h m v hm

/-! ## Sound tracks (R36, R54) -/

/-- A track's hold timer runs just while it is COASTING, and its hits stay within 15 (R36, R54). -/
def TrackOk (t : Track) : Prop := (t.hold.isSome = true ↔ t.state = .coasting) ∧ t.hits ≤ 15

/-- Every track of a table is sound. -/
def TracksOk (tracks : Row 24 (Option Track)) : Prop := ∀ n t, tracks.get n = some t → TrackOk t

/-- Freeing an entry leaves the others sound. -/
theorem TracksOk.free {tracks : Row 24 (Option Track)} (h : TracksOk tracks) (n : TrackNo) :
    TracksOk (tracks.set n none) := by
  intro m t hm
  rw [Row.get_set] at hm
  split at hm
  · cases hm
  · exact h m t hm

/-- A sound track placed in an entry leaves the table sound. -/
theorem TracksOk.set {tracks : Row 24 (Option Track)} (h : TracksOk tracks) {u : Track} (ok : TrackOk u)
    (n : TrackNo) : TracksOk (tracks.set n (some u)) := by
  intro m t hm
  rw [Row.get_set] at hm
  split at hm
  · cases hm; exact ok
  · exact h m t hm

/-- A match leaves no hold timer and no COASTING track (R42). -/
theorem matchedTrack_ok (scene : Byte) (x : Report) (t : Track) : TrackOk (matchedTrack scene x t) := by
  refine ⟨?_, Nat.min_le_left ..⟩
  dsimp only [matchedTrack]
  by_cases coasting : t.state = .coasting <;> simp [coasting]

/-- A new track is TENTATIVE, with 1 hit and no hold timer (R45). -/
theorem newTrack_ok (scene : Byte) (x : Report) : TrackOk (newTrack scene x) := by
  simp [TrackOk, newTrack]

/-- The settling makes a sound track of a sound one, with its key (R48 to R52). -/
theorem settledTrack_ok {r : AssocRules} {truncated matched : Bool} {t u : Track} (ok : TrackOk t)
    (settled : settledTrack r truncated matched t = some u) : TrackOk u ∧ trackKey t = trackKey u := by
  obtain ⟨hold, hits⟩ := ok
  unfold settledTrack at settled
  split at settled
  case h_1 state =>
    split at settled
    all_goals cases settled
    · exact ⟨⟨by simpa [state] using hold, hits⟩, rfl⟩
    · exact ⟨⟨hold, hits⟩, rfl⟩
  case h_2 | h_3 => cases settled; exact ⟨⟨hold, hits⟩, rfl⟩
  case h_4 => cases settled; exact ⟨⟨hold, hits⟩, rfl⟩
  case h_5 =>
    split at settled
    all_goals cases settled
    exact ⟨⟨hold, hits⟩, rfl⟩
  case h_6 =>
    split at settled
    case isTrue => cases settled; exact ⟨⟨hold, hits⟩, rfl⟩
    case isFalse =>
      split at settled
      all_goals cases settled
      exact ⟨⟨by simp, Nat.zero_le _⟩, rfl⟩

/-- The scene-timeout changes make a sound track of a sound one, with its key (R56). -/
theorem agedTrack_ok {s : State} {t u : Track} (ok : TrackOk t) (aged : agedTrack s t = some u) :
    TrackOk u ∧ trackKey t = trackKey u := by
  unfold agedTrack at aged
  split at aged
  case h_1 => cases aged; exact ⟨ok, rfl⟩
  case h_2 => cases aged
  case h_3 =>
    split at aged
    all_goals cases aged
    exact ⟨⟨by simp [timerIn], Nat.zero_le _⟩, rfl⟩

/-! ## The passes of an association -/

/-- Keys apart, and every track sound. -/
def TableOk (tracks : Row 24 (Option Track)) : Prop := KeysApart tracks ∧ TracksOk tracks

/-- A table each of whose entries is made of what stood there, sound of sound and with its key, stays sound. -/
theorem TableOk.bind {before after : Row 24 (Option Track)} (h : TableOk before)
    {change : TrackNo → Track → Option Track} (made : ∀ n, after.get n = (before.get n).bind (change n))
    (ok : ∀ n t u, TrackOk t → change n t = some u → TrackOk u ∧ trackKey t = trackKey u) : TableOk after := by
  obtain ⟨apart, sound⟩ := h
  have from_ (n : TrackNo) (u : Track) (hu : after.get n = some u) :
      ∃ t, before.get n = some t ∧ change n t = some u := Option.bind_eq_some_iff.mp ((made n).symm.trans hu)
  refine ⟨apart.within fun n u hu => ?_, fun n u hu => ?_⟩
  all_goals obtain ⟨t, held, changed⟩ := from_ n u hu
  · exact ⟨t, held, (ok n t u (sound n t held) changed).2⟩
  · exact (ok n t u (sound n t held) changed).1

/-- A match with a report of a key that is the entry's own, or that no entry holds, keeps the table sound. -/
theorem matchEntry_ok {r : AssocRules} {n : TrackNo} {t : Track} {x : Report} {a : Assoc} (h : TableOk a.tracks)
    (held : a.tracks.get n = some t) (sameClass : t.cls = x.cls)
    (key : t.id = x.id ∨ KeyAbsent a.tracks (reportKey x)) : TableOk (matchEntry r n t x a).tracks := by
  obtain ⟨apart, sound⟩ := h
  unfold matchEntry
  split
  case isTrue => exact ⟨apart.within (keysWithin_free a.tracks n), sound.free n⟩
  case isFalse =>
    have newKey : trackKey (matchedTrack r.scene x t) = reportKey x := by
      simp [trackKey, reportKey, matchedTrack, sameClass]
    refine ⟨?_, sound.set (matchedTrack_ok r.scene x t) n⟩
    rcases key with sameId | absent
    · refine apart.within (keysWithin_set held ?_)
      rw [newKey, trackKey, reportKey, sameId, sameClass]
    · exact apart.set (newKey ▸ absent) n

/-- A match leaves absent every key that is absent and not the report's own. -/
theorem matchEntry_absent {r : AssocRules} {n : TrackNo} {t : Track} {x : Report} {a : Assoc}
    (sameClass : t.cls = x.cls) {key : Byte × ObjClass} (absent : KeyAbsent a.tracks key) (other : reportKey x ≠ key) :
    KeyAbsent (matchEntry r n t x a).tracks key := by
  unfold matchEntry
  split
  case isTrue => exact absent.within (keysWithin_free a.tracks n)
  case isFalse =>
    refine absent.set ?_ n
    simpa [trackKey, reportKey, matchedTrack, sameClass] using other

/-- What holds between the reports of a pass and the table: the table is sound, the reports left and those to come
have distinct keys, and no entry holds the key of one of `absent`. -/
def PassOk (absent reports : List Report) (a : Assoc) : Prop :=
  TableOk a.tracks ∧ (reports.map reportKey).Nodup ∧ ∀ x ∈ absent, KeyAbsent a.tracks (reportKey x)

/-- Pass 1 over the reports to come: the table stays sound, and no entry holds the key of a report left. -/
theorem passOne_foldl (r : AssocRules) (xs : List Report) (left : List Report) (a : Assoc)
    (h : PassOk left (left ++ xs) a) :
    let one := xs.foldl (passOne r) (left, a)
    PassOk one.1 one.1 one.2 := by
  induction xs generalizing left a with
  | nil => simpa using h
  | cons x xs ih =>
    obtain ⟨table, nodup, absent⟩ := h
    rw [List.foldl_cons]
    have apartX : ∀ y ∈ left ++ xs, reportKey x ≠ reportKey y := by
      have := (List.perm_middle (a := x) (l₁ := left) (l₂ := xs)).map reportKey |>.nodup_iff.mp nodup
      rw [List.map_cons, List.nodup_cons] at this
      exact fun y hy same => this.1 (same ▸ List.mem_map_of_mem hy)
    cases found : findById a.tracks x
    case none =>
      rw [passOne_left found]
      refine ih (left ++ [x]) a ⟨table, by simpa using nodup, fun y hy => ?_⟩
      rcases List.mem_append.mp hy with old | new
      · exact absent y old
      · rw [List.mem_singleton.mp new]
        exact fun n t held same => (findById_eq_none_iff a.tracks x).mp found n t held (Prod.mk.inj same)
    case some n =>
      obtain ⟨t, held, sameId, sameClass⟩ := findById_holds found
      rw [passOne_matched found held]
      refine ih left _ ⟨matchEntry_ok table held sameClass (.inl sameId), ?_, fun y hy => ?_⟩
      · exact nodup.sublist (((List.sublist_cons_self x xs).append_left left).map reportKey)
      · exact matchEntry_absent sameClass (absent y hy) (apartX y (List.mem_append_left xs hy))

/-- Pass 2 over the reports to come, none of whose keys an entry holds: so it stays. -/
theorem passTwo_foldl (r : AssocRules) (xs : List Report) (left : List Report) (a : Assoc)
    (h : PassOk (left ++ xs) (left ++ xs) a) :
    let two := xs.foldl (passTwo r) (left, a)
    PassOk two.1 two.1 two.2 := by
  induction xs generalizing left a with
  | nil => simpa using h
  | cons x xs ih =>
    obtain ⟨table, nodup, absent⟩ := h
    rw [List.foldl_cons]
    cases chosen : bestOverlap r x a
    case none =>
      rw [passTwo_left chosen]
      exact ih (left ++ [x]) a ⟨table, by simpa using nodup, by simpa using absent⟩
    case some c =>
      obtain ⟨n, t, w⟩ := c
      obtain ⟨⟨held, sameClass, _⟩, _⟩ := bestOverlap_spec chosen
      have apartX : ∀ y ∈ left ++ xs, reportKey x ≠ reportKey y := by
        have := (List.perm_middle (a := x) (l₁ := left) (l₂ := xs)).map reportKey |>.nodup_iff.mp nodup
        rw [List.map_cons, List.nodup_cons] at this
        exact fun y hy same => this.1 (same ▸ List.mem_map_of_mem hy)
      have fewer : (left ++ xs).Sublist (left ++ x :: xs) := (List.sublist_cons_self x xs).append_left left
      rw [passTwo_matched chosen]
      refine ih left _ ⟨matchEntry_ok table held sameClass (.inr (absent x (by simp))),
        nodup.sublist (fewer.map reportKey), fun y hy => ?_⟩
      exact matchEntry_absent sameClass (absent y (fewer.subset hy)) (apartX y hy)

/-- Pass 3 over the reports left, none of whose keys an entry holds: the table stays sound. -/
theorem passThree_foldl (r : AssocRules) (xs : List Report) (a : Assoc) (h : PassOk xs xs a) :
    TableOk (xs.foldl (passThree r) a).tracks := by
  induction xs generalizing a with
  | nil => exact h.1
  | cons x xs ih =>
    obtain ⟨table, nodup, absent⟩ := h
    rw [List.map_cons, List.nodup_cons] at nodup
    obtain ⟨fresh, nodup⟩ := nodup
    have placed (n : TrackNo) (stats : Row 14 Nat) :
        PassOk xs xs { placeTrack r.scene n x a with stats := stats } := by
      have own : KeyAbsent a.tracks (trackKey (newTrack r.scene x)) := absent x List.mem_cons_self
      have others (y : Report) (hy : y ∈ xs) : trackKey (newTrack r.scene x) ≠ reportKey y := fun same =>
        fresh (List.mem_map.mpr ⟨y, hy, same.symm⟩)
      exact ⟨⟨table.1.set own n, table.2.set (newTrack_ok r.scene x) n⟩, nodup,
        fun y hy => (absent y (List.mem_cons_of_mem x hy)).set (others y hy) n⟩
    have unplaced (stats : Row 14 Nat) (dropped : Bool) : PassOk xs xs { a with stats := stats, dropped := dropped } :=
      ⟨table, nodup, fun y hy => absent y (List.mem_cons_of_mem x hy)⟩
    rw [List.foldl_cons]
    refine ih _ ?_
    unfold passThree
    split
    case isTrue => exact unplaced _ _
    case isFalse =>
      split
      · exact placed _ _
      · exact placed _ _
      · exact unplaced _ _

/-- An association of a scene whose reports have distinct keys keeps the table sound (R39). -/
theorem associate_ok {r : AssocRules} {x : Scene} {tu : Tu} (table : TableOk tu.tracks)
    (nodup : (x.reports.map reportKey).Nodup) : TableOk (associate r x tu).tracks := by
  unfold associate
  dsimp only
  rw [discardWeak_eq]
  refine (passThree_foldl r _ _ (passTwo_foldl r _ [] _ (passOne_foldl r _ [] _ ⟨table, ?_, ?_⟩))).bind
    (settle_tracks r x.truncated _) fun n t u ok settled => settledTrack_ok ok settled
  · exact nodup.sublist (List.filter_sublist.map reportKey)
  · exact fun y hy => absurd hy List.not_mem_nil

/-! ## The reports on their way (R27) -/

/-- The reports a frame's taking leaves in the buffer have distinct keys (R27). -/
theorem takeReport_nodup (sa : Sa) (r : Option Report) (h : (sa.buffer.map reportKey).Nodup) :
    ((takeReport sa r).buffer.map reportKey).Nodup := by
  unfold takeReport
  split
  case h_1 => exact h
  case h_2 => exact h
  case h_3 r p _ =>
    split
    case isTrue => exact h
    case isFalse new =>
      split
      case isTrue =>
        simp only [List.map_append, List.map_cons, List.map_nil]
        refine List.nodup_append.mpr ⟨h, List.nodup_singleton _, fun a ha b hb same => ?_⟩
        obtain ⟨y, hy, rfl⟩ := List.mem_map.mp ha
        rw [List.mem_singleton.mp hb] at same
        obtain ⟨id, cls⟩ := Prod.mk.inj same
        exact new ((inBuffer_iff r sa.buffer).mpr ⟨y, hy, id, cls⟩)
      case isFalse => exact h

/-- What of SA and its messages to TU the keys are about: the buffer, and the scenes on their way. -/
def ReportsApart (s : State) : Prop :=
  (s.sa.buffer.map reportKey).Nodup ∧ ∀ x ∈ s.mail.toTu, ((handedReports x).map reportKey).Nodup

/-- They are apart where the buffer and the messages to TU are the same. -/
theorem ReportsApart.congr {s t : State} (h : ReportsApart s) (buffer : t.sa.buffer = s.sa.buffer)
    (toTu : t.mail.toTu = s.mail.toTu) : ReportsApart t := by
  unfold ReportsApart
  rw [buffer, toTu]
  exact h

/-- Emptying the buffer keeps the rest apart. -/
theorem ReportsApart.emptied {s t : State} (h : ReportsApart s) (buffer : t.sa.buffer = [])
    (toTu : t.mail.toTu = s.mail.toTu) : ReportsApart t := by
  unfold ReportsApart
  rw [buffer, toTu]
  exact ⟨List.nodup_nil, h.2⟩

/-- A message without reports of the same key goes on its way. -/
theorem ReportsApart.sent {s t : State} (h : ReportsApart s) {x : ToTu} (apart : ((handedReports x).map reportKey).Nodup)
    (buffer : (t.sa.buffer.map reportKey).Nodup) (toTu : t.mail.toTu = s.mail.toTu ++ [x]) : ReportsApart t := by
  refine ⟨buffer, fun y hy => ?_⟩
  rw [toTu, List.mem_append, List.mem_singleton] at hy
  rcases hy with old | rfl
  · exact h.2 y old
  · exact apart

/-- A tear keeps the reports apart (R30). -/
theorem tearScene_apart {s : State} (h : ReportsApart s) : ReportsApart (tearScene s) := by
  unfold tearScene
  split
  · exact h
  · exact h.emptied rfl rfl

/-- A complete scene goes on its way with the reports of the buffer (R29). -/
theorem completeScene_apart {s : State} (h : ReportsApart s) (p : SceneProgress) :
    ReportsApart (completeScene p s) := by
  refine h.sent (x := .scene ⟨p.number, s.sa.buffer, p.truncated⟩) h.1 ?_ ?_
  · simp only [completeScene, clearStale]
    split <;> exact List.nodup_nil
  · simp only [completeScene, clearStale]
    split <;> rfl

/-- The count check keeps the reports apart (R28). -/
theorem countCheck_apart {s : State} (h : ReportsApart s) (announced : Nat) :
    ReportsApart (countCheck announced s) := by
  unfold countCheck
  split
  · exact h
  · split
    · exact completeScene_apart h _
    · exact tearScene_apart h

/-- Taking a frame's reports keeps the reports apart (R22, R27). -/
theorem takeReports_apart {s : State} (h : ReportsApart s) (f : ObjectFrame) : ReportsApart (takeReports f s) := by
  have taken : ((f.reports.foldl takeReport s.sa).buffer.map reportKey).Nodup :=
    List.foldlRecOn (motive := fun sa : Sa => (sa.buffer.map reportKey).Nodup) f.reports takeReport h.1
      fun sa nodup r _ => takeReport_nodup sa r nodup
  unfold takeReports
  dsimp only
  split
  · refine countCheck_apart ?_ _
    exact ⟨taken, h.2⟩
  · exact ⟨taken, h.2⟩

/-- Placing a frame keeps the reports apart (R25, R26). -/
theorem placeFrame_apart {s : State} (h : ReportsApart s) (f : ObjectFrame) : ReportsApart (placeFrame f s) := by
  have torn := tearScene_apart h
  unfold placeFrame
  split
  case isTrue =>
    refine takeReports_apart ?_ f
    exact torn.emptied rfl rfl
  case isFalse =>
    split
    case h_1 => exact h
    case h_2 =>
      split
      case isTrue =>
        refine takeReports_apart ?_ f
        exact h
      case isFalse => exact torn

/-- An event of SA keeps the reports apart (R22 to R33). -/
theorem SceneEvent.keeps_apart {s t : State} (h : ReportsApart s) (e : SceneEvent s t) : ReportsApart t := by
  cases e
  case frame =>
    unfold takeObjectFrame
    split
    case h_1 => exact h
    case h_2 =>
      dsimp only
      split
      case h_1 =>
        refine tearScene_apart ?_
        exact h
      case h_2 o _ =>
        refine placeFrame_apart ?_ o
        exact h
  case timeout => exact h.sent (x := .aging) List.nodup_nil h.1 rfl
  case tear =>
    refine tearScene_apart ?_
    exact h

/-! ## The whole table, at every event -/

/-- The Track Table is sound and the reports are apart: what the statement on TU asks of a state. -/
theorem trackTable_sound_iff (s : State) :
    KeysDistinct s ∧ TracksSound s ↔ TableOk s.tu.tracks ∧ ReportsApart s := by
  unfold KeysDistinct TracksSound TableOk ReportsApart KeysApart TracksOk TrackOk trackKey
  simp only [Prod.mk.injEq, and_imp]
  tauto

/-- The reset state's table and buffer are empty (R34, R57). -/
theorem tableOk_fill : TableOk (Row.fill 24 none) := by
  refine ⟨fun m n t u hm => ?_, fun n t hn => ?_⟩
  · rw [Row.get_fill] at hm; cases hm
  · rw [Row.get_fill] at hn; cases hn

end Sys2Proof.Machine

/-! The messages on their way: what the events of each block may do to them, and which table a load writes. With it the
Track Table stays sound. -/

namespace Sys2Proof.Machine

/-! ## Which table is written (R170, R171) -/

/-- The two copies of the tables differ in this table at most. -/
def OnlyTable (id : TableId) (t u : Tables) : Prop :=
  match id with
  | .curve => u = { t with curve := u.curve }
  | .classPolicy => u = { t with classPolicy := u.classPolicy }
  | .margin => u = { t with margin := u.margin }
  | .window => u = { t with window := u.window }
  | .derate => u = { t with derate := u.derate }
  | .condition => u = { t with condition := u.condition }
  | .vehicle => u = { t with vehicle := u.vehicle }
  | .build => u = { t with build := u.build }
  | .filter => u = { t with filter := u.filter }
  | .segMap => u = { t with segMap := u.segMap }
  | .modules => u = { t with modules := u.modules }
  | .profile => u = { t with profile := u.profile }
  | .mode => u = { t with mode := u.mode }
  | .link => u = { t with link := u.link }

/-- A copy differs from itself in no table. -/
theorem OnlyTable.refl (id : TableId) (t : Tables) : OnlyTable id t t := by cases id <;> rfl

/-- Two writes into one table are a write into it. -/
theorem OnlyTable.trans {id : TableId} {t u v : Tables} (h : OnlyTable id t u) (h' : OnlyTable id u v) :
    OnlyTable id t v := by
  cases id <;> (simp only [OnlyTable] at *; rw [h', h])

/-- An entry written changes its own table only. -/
theorem writeEntry_onlyTable {id : TableId} {n : Nat} {bs : List Byte} {t u : Tables}
    (h : writeEntry id n bs t = some u) : OnlyTable id t u := by
  cases id <;> simp only [writeEntry] at h
  case curve | margin | mode =>
    split at h <;> obtain ⟨_, _, rfl⟩ := Option.map_eq_some_iff.mp h <;> rfl
  case derate => cases h; rfl
  case condition =>
    obtain ⟨_, _, h⟩ := Option.bind_eq_some_iff.mp h
    obtain ⟨_, _, rfl⟩ := Option.map_eq_some_iff.mp h
    rfl
  all_goals obtain ⟨_, _, rfl⟩ := Option.map_eq_some_iff.mp h; rfl

/-- What every entry written keeps, a run of entries keeps. -/
theorem writeEntries_keeps {id : TableId} {P : Tables → Prop}
    (entry : ∀ n bs t u, writeEntry id n bs t = some u → P t → P u) {entries : List (List Byte)} {n : Nat}
    {t u : Tables} (h : writeEntries id n entries t = .ok u) (start : P t) : P u := by
  induction entries generalizing n t with
  | nil => cases h; exact start
  | cons bs rest ih =>
    unfold writeEntries at h
    split at h
    case h_1 => cases h
    case h_2 v written => exact ih h (entry n bs t v written start)

/-- A run of entries written changes its own table only. -/
theorem writeEntries_onlyTable {id : TableId} {entries : List (List Byte)} {n : Nat} {t u : Tables}
    (h : writeEntries id n entries t = .ok u) : OnlyTable id t u :=
  writeEntries_keeps (P := OnlyTable id t) (fun _ _ _ _ written only => only.trans (writeEntry_onlyTable written)) h
    (.refl id t)

/-! ## What an event may do to the messages -/

/-- What is on its way to CM is of the kind it is sent as where it was, and no Vehicle Parameters come into force unseen
by VSB: while none wait, the table is the one that stood (R18, R135). -/
structure MailKinds (s t : State) : Prop where
  levels : ∀ x ∈ t.mail.levels, x ∈ s.mail.levels ∨ condKind x.cond = .level
  events : ∀ c ∈ t.mail.events, c ∈ s.mail.events ∨ condKind c = .event
  vehicle : t.mail.vehicleParams = 0 → s.mail.vehicleParams = 0 ∧ t.mu.tables.vehicle = s.mu.tables.vehicle

/-- So, and the messages to TU are left alone. -/
structure MailFrame (s t : State) : Prop extends MailKinds s t where
  toTu : t.mail.toTu = s.mail.toTu

/-- Nothing done to the messages. -/
theorem MailFrame.ofSame {s t : State} (mail : t.mail = s.mail) (vehicle : t.mu.tables.vehicle = s.mu.tables.vehicle) :
    MailFrame s t :=
  ⟨⟨fun _ h => .inl (mail ▸ h), fun _ h => .inl (mail ▸ h), fun h => ⟨mail ▸ h, vehicle⟩⟩, mail ▸ rfl⟩

/-- The same state. -/
theorem MailFrame.refl (s : State) : MailFrame s s := .ofSame rfl rfl

/-- One after the other. -/
theorem MailKinds.trans {s t u : State} (h : MailKinds s t) (h' : MailKinds t u) : MailKinds s u where
  levels x hx := (h'.levels x hx).elim (h.levels x) .inr
  events c hc := (h'.events c hc).elim (h.events c) .inr
  vehicle none := by
    obtain ⟨between, same'⟩ := h'.vehicle none
    obtain ⟨before, same⟩ := h.vehicle between
    exact ⟨before, same'.trans same⟩

/-- One after the other. -/
theorem MailFrame.trans {s t u : State} (h : MailFrame s t) (h' : MailFrame t u) : MailFrame s u :=
  ⟨h.toMailKinds.trans h'.toMailKinds, h'.toTu.trans h.toTu⟩

/-- A fold whose every step leaves the messages so leaves them so. -/
theorem MailFrame.foldl {α : Type} {f : State → α → State} (step : ∀ s a, MailFrame s (f s a)) (xs : List α)
    (s : State) : MailFrame s (xs.foldl f s) :=
  List.foldlRecOn (motive := MailFrame s) xs f (.refl s) fun t h a _ => h.trans (step t a)

section Messages

variable {s t : State}

/-- A report of a level condition sent. -/
theorem MailFrame.after_sendLevel {c : Cond} {l : Option Link} {v : Bool} (level : condKind c = .level)
    (h : MailFrame s t) : MailFrame s (sendLevel c l v t) := by
  refine h.trans ⟨⟨fun x hx => ?_, fun _ => .inl, fun h => ⟨h, rfl⟩⟩, rfl⟩
  rcases List.mem_append.mp hx with old | new
  · exact .inl old
  · rw [List.mem_singleton.mp new]; exact .inr level

/-- An event of an event condition sent. -/
theorem MailFrame.after_sendEvent {c : Cond} (event : condKind c = .event) (h : MailFrame s t) :
    MailFrame s (sendEvent c t) := by
  refine h.trans ⟨⟨fun _ => .inl, fun x hx => ?_, fun h => ⟨h, rfl⟩⟩, rfl⟩
  rcases List.mem_append.mp hx with old | new
  · exact .inl old
  · rw [List.mem_singleton.mp new]; exact .inr event

/-- A report of a level condition sent where it changed. -/
theorem MailFrame.after_sendIfChanged {c : Cond} {l : Option Link} {a b : Bool} (level : condKind c = .level)
    (h : MailFrame s t) : MailFrame s (sendIfChanged c l a b t) := by
  unfold sendIfChanged
  split
  · exact h
  · exact h.after_sendLevel level

/-- An operation that touches neither the messages nor the Vehicle Parameters. -/
theorem MailFrame.after_same {u : State} (h : MailFrame s t) (mail : u.mail = t.mail)
    (vehicle : u.mu.tables.vehicle = t.mu.tables.vehicle) : MailFrame s u :=
  h.trans (.ofSame mail vehicle)

/-- The re-evaluations of VSB send no more than their raw values (R16, R17). -/
theorem MailFrame.after_reportStale (h : MailFrame s t) : MailFrame s (reportStale t) :=
  .after_sendIfChanged rfl (.after_sendIfChanged rfl (.after_sendIfChanged rfl (h.after_same rfl rfl)))

theorem MailFrame.after_reportDisagree (h : MailFrame s t) : MailFrame s (reportDisagree t) :=
  .after_sendIfChanged rfl (h.after_same rfl rfl)

theorem MailFrame.after_speedChanged (h : MailFrame s t) : MailFrame s (speedChanged t) :=
  .after_reportStale (h.after_same rfl rfl)

theorem MailFrame.after_steerChanged (h : MailFrame s t) : MailFrame s (steerChanged t) :=
  .after_reportStale (.after_reportDisagree (h.after_same rfl rfl))

theorem MailFrame.after_vehicleChanged (h : MailFrame s t) : MailFrame s (vehicleChanged t) :=
  .after_reportStale (.after_reportDisagree (h.after_same rfl rfl))

/-- A link sends no more than its raw values (R112). -/
theorem MailFrame.after_reportLink {l : Link} (h : MailFrame s t) : MailFrame s (reportLink l t) :=
  .after_sendIfChanged rfl (.after_sendIfChanged rfl (.after_sendIfChanged rfl (.after_sendIfChanged rfl
    (h.after_same rfl rfl))))

/-- A table that comes into force is told to the blocks it is about (R18, R38, R137). -/
theorem MailFrame.after_tableLives {id : TableId} {before : Tables} (h : MailFrame s t) :
    MailFrame s (tableLives id before t) := by
  refine h.trans ?_
  cases id
  case vehicle => exact ⟨⟨fun _ => .inl, fun _ => .inl, fun h => absurd h (Nat.succ_ne_zero _)⟩, rfl⟩
  case build | segMap => exact .after_reportLink (.after_reportLink (.refl t))
  all_goals exact ⟨⟨fun _ => .inl, fun _ => .inl, fun h => ⟨h, rfl⟩⟩, rfl⟩

/-- A table of this id written comes into force: Vehicle Parameters are told to VSB, the others are not theirs. -/
theorem MailFrame.after_written {id : TableId} {u : Tables} {before : Tables} (only : OnlyTable id t.mu.tables u)
    (h : MailFrame s t) : MailFrame s (tableLives id before { t with mu := { t.mu with tables := u } }) := by
  refine h.trans ?_
  by_cases vehicle : id = .vehicle
  case pos =>
    subst vehicle
    exact ⟨⟨fun _ => .inl, fun _ => .inl, fun h => absurd h (Nat.succ_ne_zero _)⟩, rfl⟩
  case neg =>
    refine .after_tableLives (.ofSame rfl ?_)
    cases id
    case vehicle => exact absurd rfl vehicle
    all_goals (simp only [OnlyTable] at only; rw [only])

/-- A commit taken tells VSB of Vehicle Parameters it holds (R18, R64). -/
theorem MailFrame.after_takeCommit (h : MailFrame s t) : MailFrame s (takeCommit t) := by
  refine h.trans ?_
  unfold takeCommit
  split
  case isFalse => exact .refl t
  case isTrue pending =>
    dsimp only
    have told := MailFrame.foldl (f := fun u id => tableLives id t.mu.tables u)
      (fun u _ => .after_tableLives (.refl u)) (allTables.filter (isStaged t.mu.staged))
      { t with
        mu := { t.mu with tables := overlay t.mu.staged t.mu.tables, staged := emptyStaging, commitPending := false }
        pb := { t.pb with stats := bumpAt Stat.pbCommitsTaken t.pb.stats } }
    refine ⟨⟨told.levels, told.events, fun none => ?_⟩, told.toTu⟩
    obtain ⟨before, same⟩ := told.vehicle none
    refine ⟨before, same.trans ?_⟩
    have counts := (fold_tableLives_counts (allTables.filter (isStaged t.mu.staged)) t.mu.tables
      { t with
        mu := { t.mu with tables := overlay t.mu.staged t.mu.tables, staged := emptyStaging, commitPending := false }
        pb := { t.pb with stats := bumpAt Stat.pbCommitsTaken t.pb.stats } }).1
    rw [count_isStaged t.mu.staged .vehicle (by decide)] at counts
    have unstaged : t.mu.staged.vehicle = Option.none := by
      cases staged : t.mu.staged.vehicle
      · rfl
      · simp [isStaged, staged] at counts; omega
    simp [overlay, unstaged]

theorem MailFrame.after_buildStart (h : MailFrame s t) : MailFrame s (buildStart t) :=
  h.after_takeCommit.after_same rfl rfl

theorem MailFrame.after_trigger (h : MailFrame s t) : MailFrame s (trigger t) := by
  unfold trigger
  split
  · exact h.after_buildStart
  · exact h.after_same rfl rfl

end Messages

end Sys2Proof.Machine

/-! What the events of each block do to the messages on their way. -/

namespace Sys2Proof.Machine

section Messages

variable {s t : State}

/-! ## Links -/

theorem MailFrame.after_enterJoining {l : Link} {k : Slot} (h : MailFrame s t) : MailFrame s (enterJoining l k t) := by
  unfold enterJoining
  dsimp only
  split
  · exact .after_reportLink (h.after_same rfl rfl)
  · exact h.after_same rfl rfl

theorem MailFrame.after_rejoinAll (h : MailFrame s t) : MailFrame s (rejoinAll t) := by
  have rejoined (l : Link) (u : State) (k : Slot) : MailFrame u (rejoinBroken l u k) := by
    unfold rejoinBroken
    split
    · exact .after_enterJoining (.refl u)
    · exact .refl u
  exact h.trans (.trans (.foldl (rejoined .left) _ _) (.foldl (rejoined .right) _ _))

theorem MailFrame.after_cutShort {l : Link} {k : Slot} (h : MailFrame s t) : MailFrame s (cutShort l k t) :=
  h.after_same (cutShort_mail l k t) (by simp)

theorem MailFrame.after_becomeBroken {l : Link} {k : Slot} (h : MailFrame s t) :
    MailFrame s (becomeBroken l k t) := by
  refine h.trans ?_
  unfold becomeBroken
  dsimp only
  refine .after_reportLink ?_
  have noticed : MailFrame t { t with mail := { t.mail with broken := t.mail.broken ++ [(l, k)] } } :=
    ⟨⟨fun _ => .inl, fun _ => .inl, fun h => ⟨h, rfl⟩⟩, rfl⟩
  split
  · exact .after_cutShort (noticed.after_same rfl rfl)
  · exact noticed.after_same rfl rfl

theorem MailFrame.after_miss {l : Link} {k : Slot} (h : MailFrame s t) : MailFrame s (miss l k t) := by
  unfold miss
  dsimp only
  split
  · exact .after_becomeBroken (h.after_same rfl rfl)
  · exact h.after_same rfl rfl

theorem MailFrame.after_chargeMiss {l : Link} {k : Slot} (h : MailFrame s t) : MailFrame s (chargeMiss l k t) := by
  unfold chargeMiss
  split
  · exact h
  · exact h.after_miss

/-- The raw values a link is set up with are of level conditions (R122). -/
theorem linkReports_level (l : Link) (r : LinkRaws) : ∀ x ∈ linkReports l r, condKind x.cond = .level := by
  simp [linkReports, condKind]

theorem MailFrame.after_setUpLink {l : Link} (h : MailFrame s t) : MailFrame s (setUpLink l t) := by
  refine h.trans ⟨⟨fun x hx => ?_, fun _ => .inl, fun h => ⟨h, rfl⟩⟩, rfl⟩
  rcases List.mem_append.mp hx with old | new
  · exact .inl old
  · exact .inr (linkReports_level l _ x new)

theorem MailFrame.after_treatAbsent {l : Link} (h : MailFrame s t) : MailFrame s (treatAbsent l t) := by
  unfold treatAbsent
  dsimp only
  split
  · exact .after_reportLink (h.after_same rfl rfl)
  · exact h

theorem MailFrame.after_moduleLoadFollows {id : TableId} (h : MailFrame s t) :
    MailFrame s (moduleLoadFollows id t) := by
  cases id
  case modules => exact .after_treatAbsent h.after_treatAbsent
  all_goals exact h

theorem MailFrame.after_offerPass {l : Link} {f : PassFrame} (h : MailFrame s t) : MailFrame s (offerPass l f t) := by
  rw [offerPass_eq]
  exact h.after_same rfl rfl

theorem MailFrame.after_offerPassUp {f : PassFrame} (h : MailFrame s t) : MailFrame s (offerPassUp f t) := by
  unfold offerPassUp
  split <;> exact h.after_same rfl rfl

theorem MailFrame.after_takeStatus {l : Link} {k : Slot} {band : Nat} {selfFallback : Bool} {failed : List Nat}
    (h : MailFrame s t) : MailFrame s (takeStatus l k band selfFallback failed t) := by
  refine h.trans ?_
  unfold takeStatus
  dsimp only
  refine .after_reportLink ?_
  have counted : MailFrame t (if decide ((moduleRec t l k).state ≠ .active)
      && decide (stateAfterStatus t.mu.isolation (moduleRec t l k) = .active)
    then countLink l Stat.lnkJoins (countLink l Stat.lnkStatusTaken
      (updModule l k (recordAfterStatus t.mu.isolation band selfFallback failed) t))
    else countLink l Stat.lnkStatusTaken
      (updModule l k (recordAfterStatus t.mu.isolation band selfFallback failed) t)) := by
    split <;> exact .ofSame rfl rfl
  split
  · exact counted.after_trigger
  · exact counted

theorem MailFrame.after_receiveLink {l : Link} {bytes : List Byte} (h : MailFrame s t) :
    MailFrame s (receiveLink l bytes t) := by
  unfold receiveLink
  split
  case h_1 | h_2 => exact h.after_same rfl rfl
  case h_3 f _ =>
    split
    case isTrue => exact h.after_same rfl rfl
    case isFalse =>
      have taken := h.after_same (u := countLink l Stat.lnkRxFrames
        (updModule l (frameSlot f) (fun m => { m with misses := 0 }) t)) rfl rfl
      cases f
      case status => exact taken.after_takeStatus
      case blockAck => exact taken.trans ⟨⟨fun _ => .inl, fun _ => .inl, fun h => ⟨h, rfl⟩⟩, rfl⟩
      case passUp => exact .after_offerPassUp (taken.after_same rfl rfl)

theorem MailFrame.after_expireReply {l : Link} {k : Slot} (h : MailFrame s t) : MailFrame s (expireReply l k t) := by
  unfold expireReply
  dsimp only
  split
  · exact h.after_same rfl rfl
  · exact .after_miss (h.after_same rfl rfl)

/-! ## Deliveries -/

theorem MailFrame.after_setNoModules {v : Bool} (h : MailFrame s t) : MailFrame s (setNoModules v t) :=
  .after_sendIfChanged rfl (h.after_same rfl rfl)

theorem MailFrame.after_placeBlocks {l : Link} {fs : List PatternFrame} (h : MailFrame s t) :
    MailFrame s (placeBlocks l fs t) := by
  rw [placeBlocks_eq]
  exact h.after_same rfl rfl

theorem MailFrame.after_startDelivery {g : GenRecord} (h : MailFrame s t) : MailFrame s (startDelivery g t) := by
  unfold startDelivery
  dsimp only
  split
  · exact .after_setNoModules (h.after_same rfl rfl)
  · exact .after_placeBlocks (.after_placeBlocks (.after_setNoModules (h.after_same rfl rfl)))

theorem MailFrame.after_endDelivery (h : MailFrame s t) : MailFrame s (endDelivery t) := by
  unfold endDelivery
  dsimp only
  split
  · exact h.after_same rfl rfl
  · exact .after_startDelivery (h.after_same rfl rfl)

theorem MailFrame.after_leaveAckSet {g : GenRecord} {l : Link} {k : Slot} (h : MailFrame s t) :
    MailFrame s (leaveAckSet g l k t) := by
  unfold leaveAckSet
  dsimp only
  split <;> exact h.after_same rfl rfl

theorem MailFrame.after_applyTransmitted {l : Link} (h : MailFrame s t) : MailFrame s (applyTransmitted l t) := by
  unfold applyTransmitted
  dsimp only
  split
  case h_1 =>
    split
    · exact .after_endDelivery (h.after_same rfl rfl)
    · exact h.after_same rfl rfl
  case h_2 | h_3 => exact h.after_same rfl rfl

theorem MailFrame.after_frameSent {l : Link} {f : LinkFrame} (h : MailFrame s t) : MailFrame s (frameSent l f t) := by
  unfold frameSent
  split
  case h_2 => exact h.after_applyTransmitted
  case h_1 | h_3 => exact h.after_same rfl rfl
  all_goals
    unfold startReplyTimer
    split
    · exact h
    · exact h.after_same rfl rfl

theorem MailFrame.after_abandon {g : GenRecord} (h : MailFrame s t) : MailFrame s (abandon g t) := by
  refine h.trans ?_
  unfold abandon
  dsimp only
  have charged : MailFrame t (t.du.ackSet.foldl (fun u m => chargeMiss m.1 m.2 u) t) :=
    .foldl (fun u _ => (MailFrame.refl u).after_chargeMiss) _ _
  exact .after_endDelivery (.after_same (.after_sendEvent rfl (charged.after_same rfl rfl)) rfl rfl)

/-! ## Conditions -/

theorem MailFrame.after_placeNotice (h : MailFrame s t) : MailFrame s (placeNotice t) := h.after_same rfl rfl

theorem MailFrame.after_reworkAction (h : MailFrame s t) : MailFrame s (reworkAction t) := by
  unfold reworkAction
  dsimp only
  split
  · exact h
  · exact .after_trigger (h.after_same rfl rfl)

/-- What the record and the latched report set written leave, and the action level and the NOTICE keep, a move settled
keeps (R143, R145, R146). -/
theorem settle_preserves {P : State → Prop} {c : Cond} {m : Moved}
    (written : ∀ latched, P { s with cm := { s.cm with recs := s.cm.recs.set (condNo c) m.record, latched := latched } })
    (rework : ∀ u, P u → P (reworkAction u)) (notice : ∀ u, P u → P (placeNotice u)) : P (settle c m s) := by
  have reworked (b : Bool) {u : State} (h : P u) : P (if b then reworkAction u else u) := by
    cases b
    · exact h
    · exact rework u h
  have noticed (b : Bool) {u : State} (h : P u) : P (if b then placeNotice u else u) := by
    cases b
    · exact h
    · exact notice u h
  exact noticed _ (reworked _ (written _))

theorem MailFrame.after_settle {c : Cond} {m : Moved} (h : MailFrame s t) : MailFrame s (settle c m t) := by
  refine h.trans ?_
  exact settle_preserves (fun _ => .ofSame rfl rfl) (fun _ h => h.after_reworkAction) fun _ h => h.after_placeNotice

theorem MailFrame.after_runCondition {c : Cond} {move : CondEntry → CondRec → Moved} (h : MailFrame s t) :
    MailFrame s (runCondition c move t) := h.after_settle

theorem MailFrame.after_takeLevelReport {x : LevelReport} (h : MailFrame s t) :
    MailFrame s (takeLevelReport x t) := by
  unfold takeLevelReport
  dsimp only
  split
  · exact h.after_same rfl rfl
  · exact .after_runCondition (h.after_same rfl rfl)

/-- Fewer reports on their way. -/
theorem MailFrame.after_drop {xs : List LevelReport} (fewer : ∀ x ∈ xs, x ∈ t.mail.levels) (h : MailFrame s t) :
    MailFrame s { t with mail := { t.mail with levels := xs } } :=
  h.trans ⟨⟨fun x hx => .inl (fewer x hx), fun _ => .inl, fun h => ⟨h, rfl⟩⟩, rfl⟩

theorem MailFrame.after_takeReportNow {x : LevelReport} (h : MailFrame s t) :
    MailFrame s (takeReportNow x t) := by
  unfold takeReportNow
  dsimp only
  exact (h.after_drop fun _ => List.mem_of_mem_filter).trans
    (.foldl (f := fun u y => takeLevelReport y u) (fun u _ => (MailFrame.refl u).after_takeLevelReport) _ _)

theorem MailFrame.after_takeConditionTable {x : LatchingChange} (h : MailFrame s t) :
    MailFrame s (takeConditionTable x t) := by
  refine .after_reworkAction (h.trans (.foldl (fun u c => ?_) _ _))
  unfold relatch
  split
  · exact .after_runCondition (.refl u)
  · exact .refl u

/-! ## The upstream port -/

theorem MailFrame.after_detach (h : MailFrame s t) : MailFrame s (detach t) := by
  have cut (u : State) (up : Up) (tears : List TearCause) :
      MailFrame u { u with up := up, mail := { u.mail with tears := tears } } :=
    ⟨⟨fun _ => .inl, fun _ => .inl, fun h => ⟨h, rfl⟩⟩, rfl⟩
  refine h.trans (.trans (.after_takeReportNow ?_) (cut _ _ _))
  exact .ofSame rfl rfl

theorem MailFrame.after_setScore {n : Nat} (h : MailFrame s t) : MailFrame s (setScore n t) := by
  unfold setScore
  dsimp only
  split
  case h_1 => exact h.after_same rfl rfl
  case h_2 => split <;> exact h.after_same rfl rfl
  case h_3 =>
    split
    · exact h.after_same rfl rfl
    · exact .after_detach (h.after_same rfl rfl)

theorem MailFrame.after_sortFrame {f : UpFrame} (h : MailFrame s t) : MailFrame s (sortFrame f t) := by
  unfold sortFrame
  split
  case isTrue =>
    unfold offerManagement
    split <;> exact h.after_same rfl rfl
  case isFalse =>
    split
    case h_1 a _ =>
      cases a
      case object =>
        change MailFrame s (offerObject f t)
        unfold offerObject
        split
        · exact h.after_same rfl rfl
        · exact .after_sendEvent rfl (h.after_same rfl rfl)
      case vehicle =>
        change MailFrame s (offerVehicle f t)
        unfold offerVehicle
        dsimp only
        split <;> exact h.after_same rfl rfl
      case passLeft => exact .after_offerPass (h.after_same rfl rfl)
      case passRight => exact .after_offerPass (h.after_same rfl rfl)
      case passBoth => exact .after_offerPass (.after_offerPass (h.after_same rfl rfl))
      case discard => exact h.after_same rfl rfl
    case h_2 => exact h.after_same rfl rfl

theorem MailFrame.after_receiveUpstream {bytes : List Byte} (h : MailFrame s t) :
    MailFrame s (receiveUpstream bytes t) := by
  unfold receiveUpstream
  split
  case h_4 => exact .after_sortFrame (.after_setScore (h.after_same rfl rfl))
  all_goals exact .after_setScore (h.after_same rfl rfl)

end Messages

/-! ## The events of each block -/

/-- An event of PB. -/
theorem BuildEvent.mail {s t : State} (e : BuildEvent s t) : MailFrame s t := by
  cases e
  case refresh => exact .after_trigger (.ofSame rfl rfl)
  case completion b _ =>
    unfold completeBuild
    dsimp only
    have handed : MailFrame s { s with
        pb := { storeBuild (planOf b) (finalLevels b (planOf b)) s.pb with build := none, rebuild := false }
        mail := { s.mail with records := s.mail.records ++ [recordOf b (planOf b) (finalLevels b (planOf b))
          (storeBuild (planOf b) (finalLevels b (planOf b)) s.pb).generation] } } :=
      ⟨⟨fun _ => .inl, fun _ => .inl, fun h => ⟨h, rfl⟩⟩, rfl⟩
    split
    · exact handed.after_buildStart
    · exact handed

/-- An event of DU. -/
theorem DeliveryEvent.mail {s t : State} (e : DeliveryEvent s t) : MailFrame s t := by
  have taken {m : Mail} (levels : m.levels = s.mail.levels) (events : m.events = s.mail.events)
      (vehicle : m.vehicleParams = s.mail.vehicleParams) (toTu : m.toTu = s.mail.toTu) :
      MailFrame s { s with mail := m } :=
    ⟨⟨fun _ h => .inl (levels ▸ h), fun _ h => .inl (events ▸ h), fun h => ⟨vehicle ▸ h, rfl⟩⟩, toTu⟩
  cases e
  case record g rest _ =>
    unfold takeRecord
    have awaits := taken (m := { s.mail with records := rest }) rfl rfl rfl rfl
    split
    · exact awaits.after_startDelivery
    · exact awaits.after_same rfl rfl
    · exact awaits.after_same rfl rfl
  case ack a =>
    unfold takeAck
    have awaits := taken (m := { s.mail with acks := s.mail.acks.erase a }) rfl rfl rfl rfl
    split
    · exact awaits.after_same rfl rfl
    · split
      · exact awaits.after_same rfl rfl
      · split
        · exact .after_leaveAckSet (awaits.after_same rfl rfl)
        · exact awaits.after_same rfl rfl
  case broken m =>
    unfold takeBroken
    have awaits := taken (m := { s.mail with broken := s.mail.broken.erase m }) rfl rfl rfl rfl
    split
    · split
      · exact .after_leaveAckSet (awaits.after_same rfl rfl)
      · exact awaits
    · exact awaits
    · exact awaits
  case timeout =>
    unfold expireApply
    split
    · exact .after_abandon (.refl s)
    · exact .ofSame rfl rfl

/-- An event of a link. -/
theorem LinkEvent.mail {l : Link} {s t : State} (e : LinkEvent l s t) : MailFrame s t := by
  cases e
  case frame => exact .after_receiveLink (.refl s)
  case replyTimeout => exact .after_expireReply (.refl s)
  case poll => exact .ofSame rfl rfl
  case wakeEnd => exact .ofSame rfl rfl
  case sent => exact .after_same (.after_frameSent (.refl s)) rfl rfl

/-- An event of CM. -/
theorem ConditionEvent.mail {s t : State} (e : ConditionEvent s t) : MailFrame s t := by
  cases e
  case report => exact .after_takeLevelReport (.after_drop (fun _ => List.mem_of_mem_erase) (.refl s))
  case event c _ =>
    refine .after_runCondition ⟨⟨fun _ => .inl, fun x hx => .inl (List.mem_of_mem_erase hx), fun h => ⟨h, rfl⟩⟩, rfl⟩
  case persistence | levelRecovery | eventRecovery => exact .after_runCondition (.refl s)
  case table x rest _ =>
    exact .after_takeConditionTable ⟨⟨fun _ => .inl, fun _ => .inl, fun h => ⟨h, rfl⟩⟩, rfl⟩

/-- An event of UP. -/
theorem PortEvent.mail {s t : State} (e : PortEvent s t) : MailFrame s t := by
  cases e
  case frame => exact .after_receiveUpstream (.refl s)
  case recovery => exact .after_same (.after_sendLevel rfl (.ofSame rfl rfl)) rfl rfl
  case sent => exact .ofSame rfl rfl

/-- A request carried out. -/
theorem CommandEffect.mail {s t : State} (e : CommandEffect s t) : MailFrame s t := by
  cases e
  case nothing => exact .refl s
  case clearStatistics g _ _ => cases g <;> exact .ofSame rfl rfl
  case loadLive id first entries u _ written =>
    exact .after_moduleLoadFollows (.after_written (writeEntries_onlyTable written) (.refl s))
  case loadStaged | discard | clearTracks | refuseRecover | restart => exact .ofSame rfl rfl
  case commit => exact .after_trigger (.ofSame rfl rfl)
  case rejectCommit => exact .after_sendEvent rfl (.ofSame rfl rfl)
  case enterConfig => exact .after_trigger ⟨⟨fun _ => .inl, fun _ => .inl, fun h => ⟨h, rfl⟩⟩, rfl⟩
  case exitConfig => exact .after_trigger (.after_setUpLink (.after_setUpLink (.ofSame rfl rfl)))
  case setHold value =>
    unfold setHoldLow
    split
    · exact .refl s
    · exact .after_trigger (.ofSame rfl rfl)
  case setIsolation on =>
    refine .after_rejoinAll ?_
    exact .ofSame rfl rfl
  case steerZero => exact .after_steerChanged (.ofSame rfl rfl)
  case clearNotice numbers =>
    unfold clearNotices
    dsimp only
    split
    · exact .after_placeNotice (.ofSame rfl rfl)
    · exact .ofSame rfl rfl
  case recoverCondition => exact .after_runCondition (.refl s)
  case recoverModule => exact .after_enterJoining (.refl s)

/-! ## The events of SA and TU, which send and take messages to TU -/

/-- A message to TU more. -/
theorem MailKinds.after_toTu {s t : State} (xs : List ToTu) (h : MailKinds s t) :
    MailKinds s { t with mail := { t.mail with toTu := xs } } :=
  h.trans ⟨fun _ => .inl, fun _ => .inl, fun h => ⟨h, rfl⟩⟩

/-- A tear (R30). -/
theorem MailFrame.after_tearScene {s t : State} (h : MailFrame s t) : MailFrame s (tearScene t) := by
  unfold tearScene
  split
  · exact h
  · exact .after_sendEvent rfl (h.after_same rfl rfl)

/-- The count check (R28). -/
theorem MailKinds.after_countCheck {s t : State} {n : Nat} (h : MailFrame s t) : MailKinds s (countCheck n t) := by
  unfold countCheck
  split
  · exact h.toMailKinds
  · split
    · refine .after_toTu _ (MailFrame.toMailKinds ?_)
      unfold clearStale
      split
      · exact .after_sendLevel rfl (h.after_same rfl rfl)
      · exact h.after_same rfl rfl
    · exact h.after_tearScene.toMailKinds

/-- The reports of a frame taken (R22). -/
theorem MailKinds.after_takeReports {s t : State} {f : ObjectFrame} (h : MailFrame s t) :
    MailKinds s (takeReports f t) := by
  unfold takeReports
  dsimp only
  split
  · exact .after_countCheck (h.after_same rfl rfl)
  · refine MailFrame.toMailKinds ?_
    exact h.after_same rfl rfl

/-- A frame placed (R25, R26). -/
theorem MailKinds.after_placeFrame {s t : State} {f : ObjectFrame} (h : MailFrame s t) :
    MailKinds s (placeFrame f t) := by
  have torn := h.after_tearScene
  unfold placeFrame
  split
  · exact .after_takeReports (torn.after_same rfl rfl)
  · split
    · refine MailFrame.toMailKinds ?_
      exact h.after_same rfl rfl
    · split
      · exact .after_takeReports (h.after_same rfl rfl)
      · refine MailFrame.toMailKinds ?_
        exact torn.after_same rfl rfl

/-- An event of SA. -/
theorem SceneEvent.mail {s t : State} (e : SceneEvent s t) : MailKinds s t := by
  cases e
  case frame =>
    unfold takeObjectFrame
    split
    · exact (MailFrame.refl s).toMailKinds
    · dsimp only
      split
      · refine MailFrame.toMailKinds (.after_tearScene ?_)
        exact .ofSame rfl rfl
      · exact .after_placeFrame (.ofSame rfl rfl)
  case timeout =>
    refine .after_toTu _ (MailFrame.toMailKinds (.after_sendLevel rfl ?_))
    exact .ofSame rfl rfl
  case tear =>
    refine (MailFrame.after_tearScene ?_).toMailKinds
    exact ⟨⟨fun _ => .inl, fun _ => .inl, fun h => ⟨h, rfl⟩⟩, rfl⟩

/-- A scene taken leaves the messages to TU that wait behind it (R39). -/
theorem MailFrame.after_takeScene {s t : State} {x : Scene} (h : MailFrame s t) : MailFrame s (takeScene x t) := by
  unfold takeScene
  dsimp only
  refine .after_trigger ?_
  split
  · exact .after_sendEvent rfl (h.after_same rfl rfl)
  · exact h.after_same rfl rfl

/-- An event of TU. -/
theorem TrackEvent.mail {s t : State} (e : TrackEvent s t) : MailKinds s t ∧ ∀ x ∈ t.mail.toTu, x ∈ s.mail.toTu := by
  cases e
  case scene x rest first =>
    have taken := MailFrame.after_takeScene (x := x) (.refl { s with mail := { s.mail with toTu := rest } })
    refine ⟨.trans (.after_toTu rest (MailFrame.refl s).toMailKinds) taken.toMailKinds, fun y hy => ?_⟩
    rw [taken.toTu] at hy
    exact first ▸ List.mem_cons_of_mem _ hy
  case hold n =>
    have freed : MailFrame s (expireHold n s) := .after_trigger (.ofSame rfl rfl)
    exact ⟨freed.toMailKinds, fun y hy => freed.toTu ▸ hy⟩
  case aging => exact ⟨⟨fun _ => .inl, fun _ => .inl, fun h => ⟨h, rfl⟩⟩, fun _ => List.mem_of_mem_erase⟩
  case policy => exact ⟨⟨fun _ => .inl, fun _ => .inl, fun h => ⟨h, rfl⟩⟩, fun _ => id⟩

/-! ## The events of VSB -/

/-- An event of VSB, once the notice of new Vehicle Parameters it takes is gone. -/
theorem VehicleEvent.mail {s t : State} (e : VehicleEvent s t) :
    ∃ n, (n = s.mail.vehicleParams ∨ t = takeVehicleParameters s)
      ∧ MailFrame { s with mail := { s.mail with vehicleParams := n } } t := by
  cases e
  case parameters => exact ⟨_, .inr rfl, .after_vehicleChanged (.ofSame rfl rfl)⟩
  all_goals refine ⟨_, .inl rfl, ?_⟩
  case frame =>
    unfold takeVehicleFrame
    split
    · exact .refl s
    · dsimp only
      split
      · exact .ofSame rfl rfl
      · unfold applyVehicleFrame
        dsimp only
        split
        · exact .after_trigger (.after_vehicleChanged (.ofSame rfl rfl))
        · exact .after_vehicleChanged (.ofSame rfl rfl)
  case staleness field =>
    cases field
    case speed => exact .after_speedChanged (.ofSame rfl rfl)
    case steering => exact .after_steerChanged (.ofSame rfl rfl)
    case request => exact .after_trigger (.after_reportStale (.ofSame rfl rfl))
    all_goals exact .ofSame rfl rfl
  case edge =>
    unfold takeEdge
    split
    · exact .ofSame rfl rfl
    · split
      · exact .ofSame rfl rfl
      · unfold captureEdge
        dsimp only
        split
        · exact .ofSame rfl rfl
        · exact .after_speedChanged (.ofSame rfl rfl)
  case speedTimeout => exact .after_speedChanged (.ofSame rfl rfl)
  case step line =>
    unfold stepCounter
    cases line <;> split <;> exact .after_steerChanged (.ofSame rfl rfl)
  case phaseError =>
    unfold countPhaseError
    dsimp only
    split
    · exact .after_steerChanged (.ofSame rfl rfl)
    · exact .ofSame rfl rfl

/-! ## The Track Table stays sound -/

/-- The reports are apart as before where SA is left alone and nothing is sent to TU. -/
theorem ReportsApart.frame {s t : State} (h : ReportsApart s) (sa : t.sa = s.sa) (mail : MailFrame s t) :
    ReportsApart t :=
  h.congr (by rw [sa]) mail.toTu

/-- An event of TU keeps the reports apart. -/
theorem TrackEvent.keeps_apart {s t : State} (apart : ReportsApart s) (e : TrackEvent s t) : ReportsApart t := by
  obtain ⟨_, _, _, _, buffer, _⟩ := e.keeps
  obtain ⟨_, fewer⟩ := e.mail
  exact ⟨buffer ▸ apart.1, fun x hx => apart.2 x (fewer x hx)⟩

/-- An event of TU keeps the table sound (R39, R54, R56). -/
theorem TrackEvent.keeps_table {s t : State} (table : TableOk s.tu.tracks) (apart : ReportsApart s)
    (e : TrackEvent s t) : TableOk t.tu.tracks := by
  cases e
  case scene x rest first =>
    obtain ⟨_, onTheWay⟩ := apart
    have scene := onTheWay (.scene x) (first ▸ List.mem_cons_self)
    rw [takeScene_eq x _ _ rfl]
    simpa using associate_ok table scene
  case hold n =>
    obtain ⟨keys, tracks⟩ := table
    simp only [expireHold, trigger_keeps]
    exact ⟨keys.within (keysWithin_free _ n), tracks.free n⟩
  case aging => exact table.bind (ageTracks_tracks s) fun _ _ _ => agedTrack_ok
  case policy => exact table

/-- Carrying out a request leaves the tracks, or frees them all, and leaves the buffer of SA. -/
theorem CommandEffect.keeps_tracks {s t : State} (e : CommandEffect s t) :
    t.sa.buffer = s.sa.buffer ∧ (t.tu.tracks = s.tu.tracks ∨ t.tu.tracks = Row.fill 24 none) := by
  cases e
  case clearStatistics g _ _ => cases g <;> exact ⟨rfl, .inl rfl⟩
  case clearTracks => exact ⟨rfl, .inr rfl⟩
  case exitConfig => exact ⟨by simp [Machine.exitConfig], .inr (by simp [Machine.exitConfig])⟩
  case clearNotice numbers =>
    unfold clearNotices
    dsimp only
    split <;> exact ⟨rfl, .inl rfl⟩
  all_goals exact ⟨by simp, .inl (by simp)⟩

/-- Carrying out a request keeps the table sound and the reports apart. -/
theorem CommandEffect.keeps_table {s t : State} (table : TableOk s.tu.tracks) (apart : ReportsApart s)
    (e : CommandEffect s t) : TableOk t.tu.tracks ∧ ReportsApart t := by
  obtain ⟨buffer, tracks | freed⟩ := e.keeps_tracks
  · exact ⟨tracks ▸ table, apart.congr buffer e.mail.toTu⟩
  · exact ⟨freed ▸ tableOk_fill, apart.congr buffer e.mail.toTu⟩

/-- Every event keeps the table sound and the reports apart. -/
theorem Event.keeps_table {s t : State} (table : TableOk s.tu.tracks) (apart : ReportsApart s) (e : Event s t) :
    TableOk t.tu.tracks ∧ ReportsApart t := by
  cases e
  case unmoved | linesMove | resetAsserted => exact ⟨table, apart⟩
  case reset | restart => exact ⟨tableOk_fill, List.nodup_nil, fun x hx => absurd hx List.not_mem_nil⟩
  case vehicle e =>
    obtain ⟨sa, tu, _⟩ := e.keeps
    obtain ⟨n, _, mail⟩ := e.mail
    exact ⟨tu ▸ table, apart.congr (by rw [sa]) mail.toTu⟩
  case scene e => obtain ⟨_, tu, _⟩ := e.keeps; exact ⟨tu ▸ table, e.keeps_apart apart⟩
  case track e => exact ⟨e.keeps_table table apart, e.keeps_apart apart⟩
  case build e => obtain ⟨_, sa, tu, _⟩ := e.keeps; exact ⟨tu ▸ table, apart.frame sa e.mail⟩
  case delivery e => obtain ⟨_, sa, tu, _⟩ := e.keeps; exact ⟨tu ▸ table, apart.frame sa e.mail⟩
  case link e => obtain ⟨_, sa, tu, _⟩ := e.keeps; exact ⟨tu ▸ table, apart.frame sa e.mail⟩
  case condition e => obtain ⟨_, sa, tu, _⟩ := e.keeps; exact ⟨tu ▸ table, apart.frame sa e.mail⟩
  case port e => obtain ⟨_, sa, tu, _⟩ := e.keeps; exact ⟨tu ▸ table, apart.frame sa e.mail⟩
  case request u f rest takes effect _ _ _ =>
    have carried : TableOk u.tu.tracks ∧ ReportsApart u :=
      effect.keeps_table (s := afterTaking rest s) table apart
    exact carried

/-- Settles O59: the table is sound and the reports are apart after every event. -/
theorem trackTableStaysSound : Obligations.TrackTableStaysSound := by
  refine fun s t sound next => (trackTable_sound_iff t).mpr ?_
  refine step_keeps (P := fun s => TableOk s.tu.tracks ∧ ReportsApart s) (fun _ _ h => h) (fun _ _ h => h) ?_ s t
    ((trackTable_sound_iff s).mp sound) next
  rintro s t ⟨table, apart⟩ e
  exact e.keeps_table table apart

end Sys2Proof.Machine

/-! The records of the Condition Monitor: what each machine keeps of a sound record, and with it that every event keeps
them sound (R135, R138, R140). -/

namespace Sys2Proof.Machine

/-! ## The level machine keeps its records sound (R138) -/

/-- A level condition's record is sound for this raw value. -/
def LevelOk (raw : Bool) (r : CondRec) : Prop :=
  (r.state = .clear → raw = false) ∧ (r.state = .recovering → raw = false) ∧ (r.state = .alert → raw = true)
    ∧ (r.persist.isSome = true ↔ r.state = .alert) ∧ (r.recover.isSome = true ↔ r.state = .recovering)

/-- A level condition's record is sound where it is for its own raw value. -/
theorem levelRecordSound_iff (c : Cond) (r : CondRec) : LevelRecordSound c r ↔ LevelOk (condRaw c r) r := Iff.rfl

/-- Two records of the same raw values. -/
def SameRaws (r r' : CondRec) : Prop := r'.raw = r.raw ∧ r'.rawLeft = r.rawLeft ∧ r'.rawRight = r.rawRight

/-- They give the condition the same raw value. -/
theorem SameRaws.condRaw {r r' : CondRec} (h : SameRaws r r') (c : Cond) : condRaw c r' = condRaw c r := by
  obtain ⟨raw, left, right⟩ := h
  unfold Machine.condRaw
  rw [raw, left, right]

section LevelMachine

variable {raw : Bool} {r : CondRec} {now : Nat} {e : CondEntry}

/-- A record's soundness is no matter of the reports stored in it. -/
theorem LevelOk.store (h : LevelOk raw r) (l : Option Link) (v : Bool) : LevelOk raw (storeRaw l v r) := by
  rcases l with _ | _ | _ <;> exact h

/-- In FAULT a record is sound whatever its raw value, with no timer running. -/
theorem levelOk_fault (fault : r.state = .fault) :
    LevelOk raw r ↔ r.persist.isSome = false ∧ r.recover.isSome = false := by
  simp [LevelOk, fault]

/-- RECOVERING, or CLEAR at Q of 0, is sound with the raw value false. -/
theorem levelRecover_ok (h : LevelOk raw r) (fault : r.state = .fault) : LevelOk false (levelRecover now e r).record := by
  obtain ⟨persist, _⟩ := (levelOk_fault fault).mp h
  rw [levelRecover_eq]
  split
  · simp [LevelOk]
  · simp [LevelOk, persist]

/-- A sound record is so after its raw value became true. -/
theorem levelTrue_ok (h : LevelOk false r) : LevelOk true (levelTrue now e r).record := by
  obtain ⟨_, _, alert, persist, recover⟩ := h
  cases state : r.state
  case clear =>
    rw [levelTrue_clear now e state]
    split <;> simp [LevelOk, recover, state]
  case alert => exact absurd (alert state) (by decide)
  case fault =>
    rw [levelTrue_fault now e state]
    simp [LevelOk, persist, recover, state]
  case recovering =>
    rw [levelTrue_recovering now e state]
    simp [LevelOk]

/-- A sound record is so after its raw value became false. -/
theorem levelFalse_ok (h : LevelOk true r) : LevelOk false (levelFalse now e r).record := by
  have sound := h
  obtain ⟨clear, recovering, _, persist, recover⟩ := h
  cases state : r.state
  case clear => exact absurd (clear state) (by decide)
  case recovering => exact absurd (recovering state) (by decide)
  case alert =>
    rw [levelFalse_alert now e state]
    simp [LevelOk, recover, state]
  case fault =>
    rw [levelFalse_fault now e state]
    split
    · exact (levelOk_fault state).mpr ((levelOk_fault state).mp sound)
    · exact levelRecover_ok sound state

/-- A persistence expiry keeps a record sound. -/
theorem persistenceExpires_ok (h : LevelOk raw r) : LevelOk raw (persistenceExpires r).record := by
  obtain ⟨clear, recovering, _, persist, recover⟩ := h
  cases state : r.state
  case alert =>
    rw [persistenceExpires_alert state]
    simp [LevelOk, recover, state]
  all_goals simp_all [LevelOk, persistenceExpires, stay]

/-- A recovery expiry keeps a record sound. -/
theorem levelRecoveryExpires_ok (h : LevelOk raw r) : LevelOk raw (levelRecoveryExpires r).record := by
  obtain ⟨clear, recovering, alert, persist, recover⟩ := h
  cases state : r.state
  case recovering =>
    rw [levelRecoveryExpires_recovering state]
    simp [LevelOk, recovering state]
  all_goals simp_all [LevelOk, levelRecoveryExpires, stay]

/-- No move of a level machine touches the raw values. -/
theorem levelMoves_sameRaws : SameRaws r (levelRecover now e r).record ∧ SameRaws r (levelTrue now e r).record
    ∧ SameRaws r (levelFalse now e r).record ∧ SameRaws r (persistenceExpires r).record
    ∧ SameRaws r (levelRecoveryExpires r).record := by
  have recover : SameRaws r (levelRecover now e r).record := by
    rw [levelRecover_eq]
    split <;> exact ⟨rfl, rfl, rfl⟩
  refine ⟨recover, ?_, ?_, ?_, ?_⟩
  · unfold levelTrue
    split
    · split <;> exact ⟨rfl, rfl, rfl⟩
    all_goals exact ⟨rfl, rfl, rfl⟩
  · unfold levelFalse
    split
    case h_2 =>
      split
      · exact ⟨rfl, rfl, rfl⟩
      · exact recover
    all_goals exact ⟨rfl, rfl, rfl⟩
  · unfold persistenceExpires
    split <;> exact ⟨rfl, rfl, rfl⟩
  · unfold levelRecoveryExpires
    split <;> exact ⟨rfl, rfl, rfl⟩

end LevelMachine

/-! ## The event machine keeps its records sound (R140) -/

section EventMachine

variable {r : CondRec} {now : Nat} {e : CondEntry}

/-- An event taken keeps a record sound. -/
theorem eventArrives_sound (h : EventRecordSound r) : EventRecordSound (eventArrives now e r).record := by
  have whole := h
  obtain ⟨persist, clear, alert, recovering⟩ := h
  cases state : r.state
  case clear =>
    rw [eventArrives_clear now e state]
    split <;> simp [EventRecordSound, eventFault, persist]
  case alert =>
    rw [eventArrives_alert now e state]
    split <;> simp [EventRecordSound, eventFault, persist, state]
  case fault =>
    rw [eventArrives_fault now e state]
    split
    · exact whole
    · simp [EventRecordSound, persist, state]
  case recovering =>
    rw [eventArrives_recovering now e state]
    simp [EventRecordSound, eventFault]

/-- RECOVERING with its timer started is sound. -/
theorem eventRecover_sound (h : EventRecordSound r) : EventRecordSound (eventRecover now e r).record :=
  ⟨h.1, (fun clear => absurd clear (by simp [eventRecover])), (fun alert => absurd alert (by simp [eventRecover])),
    fun _ => rfl⟩

/-- A recovery expiry keeps a record sound. -/
theorem eventRecoveryExpires_sound (h : EventRecordSound r) :
    EventRecordSound (eventRecoveryExpires now e r).record := by
  have whole := h
  obtain ⟨persist, clear, _, _⟩ := h
  cases state : r.state
  case clear => simp [eventRecoveryExpires, state, stay, EventRecordSound, persist, clear state]
  case fault =>
    unfold eventRecoveryExpires
    rw [state]
    dsimp only
    split
    · simp [stay, EventRecordSound, persist]
    · exact eventRecover_sound whole
  all_goals simp [eventRecoveryExpires, state, intoClear, EventRecordSound]

end EventMachine

/-! ## Every record sound for its kind -/

/-- A condition's record is sound for its kind. -/
def RecordSound (c : Cond) (r : CondRec) : Prop :=
  match condKind c with
  | .level => LevelRecordSound c r
  | .event => EventRecordSound r

/-- A level condition's record. -/
theorem recordSound_level {c : Cond} (level : condKind c = .level) (r : CondRec) :
    RecordSound c r ↔ LevelOk (condRaw c r) r := by
  rw [RecordSound, level, levelRecordSound_iff]

/-- An event condition's record. -/
theorem recordSound_event {c : Cond} (event : condKind c = .event) (r : CondRec) :
    RecordSound c r ↔ EventRecordSound r := by
  rw [RecordSound, event]

/-- Every record is sound. -/
def RecordsSound (s : State) : Prop := ∀ c, RecordSound c (condRec s c)

/-- Records, and messages of their kinds: what the statement on CM asks of a state. -/
theorem conditionsSound_iff (s : State) : ConditionsSound s ↔ RecordsSound s
    ∧ (∀ x ∈ s.mail.levels, condKind x.cond = .level) ∧ ∀ c ∈ s.mail.events, condKind c = .event := by
  unfold ConditionsSound RecordsSound
  rw [← and_assoc]
  refine and_congr_left fun _ => ⟨fun ⟨level, event⟩ c => ?_, fun h => ⟨fun c level => ?_, fun c event => ?_⟩⟩
  · cases kind : condKind c
    · exact (recordSound_level kind _).mpr (level c kind)
    · exact (recordSound_event kind _).mpr (event c kind)
  · exact (recordSound_level level _).mp (h c)
  · exact (recordSound_event event _).mp (h c)

/-- The same records are as sound as they were. -/
theorem RecordsSound.congr {s t : State} (h : RecordsSound s) (recs : t.cm.recs = s.cm.recs) : RecordsSound t := by
  intro c
  unfold condRec
  rw [recs]
  exact h c

/-- A sound record in the place of one keeps every record sound. -/
theorem RecordsSound.set {s t : State} (h : RecordsSound s) {c : Cond} {r : CondRec}
    (recs : t.cm.recs = s.cm.recs.set (condNo c) r) (sound : RecordSound c r) : RecordsSound t := by
  intro d
  unfold condRec
  rw [recs, Row.get_set]
  split
  case isTrue same => exact condNo_inj d c same ▸ sound
  case isFalse => exact h d

/-- The action level worked out again leaves the records. -/
theorem reworkAction_recs (s : State) : (reworkAction s).cm.recs = s.cm.recs := by
  unfold reworkAction
  dsimp only
  split
  · rfl
  · simp

/-- Settling a move changes the record of its condition only. -/
theorem settle_recs (c : Cond) (m : Moved) (s : State) :
    (settle c m s).cm.recs = s.cm.recs.set (condNo c) m.record :=
  settle_preserves (P := fun u => u.cm.recs = s.cm.recs.set (condNo c) m.record) (fun _ => rfl)
    (fun u h => (reworkAction_recs u).trans h) fun _ h => h

/-- A condition whose machine makes a sound record of a sound one keeps every record sound. -/
theorem runCondition_sound {s : State} (h : RecordsSound s) {c : Cond} {move : CondEntry → CondRec → Moved}
    (sound : ∀ e r, RecordSound c r → RecordSound c (move e r).record) : RecordsSound (runCondition c move s) :=
  h.set (settle_recs ..) (sound _ _ (h c))

/-- A report of a level condition taken keeps every record sound (R135, R138). -/
theorem takeLevelReport_sound {s : State} (h : RecordsSound s) {x : LevelReport} (level : condKind x.cond = .level) :
    RecordsSound (takeLevelReport x s) := by
  have ok := (recordSound_level level _).mp (h x.cond)
  have stored : LevelOk (condRaw x.cond (condRec s x.cond)) (storedRec x s) := ok.store x.link x.value
  by_cases same : condRaw x.cond (storedRec x s) = condRaw x.cond (condRec s x.cond)
  case pos =>
    rw [takeLevelReport_same same]
    refine h.set rfl ((recordSound_level level _).mpr ?_)
    rw [same]
    exact stored
  case neg =>
    have moved (m : Moved) (raws : SameRaws (storedRec x s) m.record)
        (ok : LevelOk (condRaw x.cond (storedRec x s)) m.record) :
        RecordsSound (settle x.cond m (withReportStored x s)) := by
      refine h.set (r := m.record) ?_ ((recordSound_level level _).mpr (raws.condRaw x.cond ▸ ok))
      rw [settle_recs]
      exact Row.set_set ..
    obtain ⟨_, trueRaws, falseRaws, _⟩ :=
      levelMoves_sameRaws (r := storedRec x s) (now := s.now) (e := s.mu.tables.condition.get (condNo x.cond))
    cases was : condRaw x.cond (condRec s x.cond)
    case false =>
      have is : condRaw x.cond (storedRec x s) = true := by simpa [was] using same
      rw [takeLevelReport_rises was is]
      refine moved _ trueRaws ?_
      rw [is]
      exact levelTrue_ok (was ▸ stored)
    case true =>
      have is : condRaw x.cond (storedRec x s) = false := by simpa [was] using same
      rw [takeLevelReport_falls was is]
      refine moved _ falseRaws ?_
      rw [is]
      exact levelFalse_ok (was ▸ stored)

/-- A report taken within the event that sends it keeps every record sound (assumption 28). -/
theorem takeReportNow_sound {s : State} (h : RecordsSound s) {x : LevelReport} (level : condKind x.cond = .level) :
    RecordsSound (takeReportNow x s) := by
  refine List.foldlRecOn (motive := RecordsSound) _ (fun u y => takeLevelReport y u) (h.congr rfl) fun u sound y hy => ?_
  refine takeLevelReport_sound sound ?_
  rcases List.mem_append.mp hy with waiting | new
  · obtain ⟨_, ofX⟩ := List.mem_filter.mp waiting
    have same : y.cond = x.cond := by
      have both := ofX
      simp only [reportsOn, Bool.and_eq_true, decide_eq_true_eq] at both
      exact both.1
    rw [same]
    exact level
  · rw [List.mem_singleton.mp new]
    exact level

/-- What a condition does under a table that made it non-latching keeps its record sound (R137). -/
theorem unlatched_sound (now : Nat) {c : Cond} (e : CondEntry) {r : CondRec} (h : RecordSound c r) :
    RecordSound c (unlatched now c e r).record := by
  unfold unlatched
  split
  case h_1 level fault =>
    split
    case isTrue => exact h
    case isFalse low =>
      obtain ⟨raws, _⟩ := levelMoves_sameRaws (r := r) (now := now) (e := e)
      rw [recordSound_level level, raws.condRaw c, Bool.eq_false_iff.mpr low]
      exact levelRecover_ok ((recordSound_level level r).mp h) fault
  case h_2 event fault =>
    rw [recordSound_event event] at h ⊢
    exact ⟨h.1, by simp [stay, fault], by simp [stay, fault], by simp [stay, fault]⟩
  case h_3 | h_4 => exact h

/-- What RECOVER makes of a record keeps it sound (R142). -/
theorem recovered_sound (now : Nat) {c : Cond} (e : CondEntry) {r : CondRec} (h : RecordSound c r) :
    RecordSound c (recovered now c e r).record := by
  unfold recovered
  split
  case h_1 fault level =>
    split
    case isTrue => exact h
    case isFalse low =>
      obtain ⟨raws, _⟩ := levelMoves_sameRaws (r := r) (now := now) (e := e)
      rw [recordSound_level level, raws.condRaw c, Bool.eq_false_iff.mpr low]
      exact levelRecover_ok ((recordSound_level level r).mp h) fault
  case h_2 fault event =>
    rw [recordSound_event event] at h ⊢
    exact eventRecover_sound h
  all_goals exact h

/-- A timer that does not run is never due. -/
theorem due_running {now : Nat} {t : Timer} (h : due now t = true) : t ≠ none := by
  rintro rfl
  cases h

/-- An event of CM keeps every record sound: a level report and a level expiry go to the level machine, the others to the
event machine (R135, R138, R140). -/
theorem ConditionEvent.keeps_records {s t : State} (h : ConditionsSound s) (e : ConditionEvent s t) :
    RecordsSound t := by
  obtain ⟨sound, levels, events⟩ := (conditionsSound_iff s).mp h
  cases e
  case report x waits =>
    refine takeLevelReport_sound ?_ (levels x waits)
    exact sound.congr rfl
  case event c waits =>
    have event := events c waits
    refine runCondition_sound (s := { s with mail := { s.mail with events := s.mail.events.erase c } }) sound
      fun e r ok => ?_
    rw [recordSound_event event] at ok ⊢
    exact eventArrives_sound ok
  case persistence c expired =>
    refine runCondition_sound sound fun e r ok => ?_
    cases kind : condKind c
    case level =>
      obtain ⟨_, _, _, raws, _⟩ := levelMoves_sameRaws (r := r) (now := 0) (e := e)
      rw [recordSound_level kind] at ok ⊢
      rw [raws.condRaw c]
      exact persistenceExpires_ok ok
    case event =>
      have stopped := ((recordSound_event kind _).mp (sound c)).1
      exact absurd stopped (due_running expired)
  case levelRecovery c level _ =>
    refine runCondition_sound sound fun e r ok => ?_
    obtain ⟨_, _, _, _, raws⟩ := levelMoves_sameRaws (r := r) (now := 0) (e := e)
    rw [recordSound_level level] at ok ⊢
    rw [raws.condRaw c]
    exact levelRecoveryExpires_ok ok
  case eventRecovery c event _ =>
    refine runCondition_sound sound fun e r ok => ?_
    rw [recordSound_event event] at ok ⊢
    exact eventRecoveryExpires_sound ok
  case table x rest _ =>
    have relatched : RecordsSound (allConds.foldl (relatch x) { s with mail := { s.mail with condTable := rest } }) := by
      refine List.foldlRecOn (motive := RecordsSound) _ _ (sound.congr rfl) fun u ok c _ => ?_
      unfold relatch
      split
      · exact runCondition_sound ok fun e r => unlatched_sound u.now e
      · exact ok
    exact relatched.congr (reworkAction_recs _)

/-- A change of the error score keeps every record sound: entering DETACHED, CM takes its report at once (R153). -/
theorem setScore_sound {s : State} (h : RecordsSound s) (n : Nat) : RecordsSound (setScore n s) := by
  unfold setScore
  dsimp only
  split
  case h_1 => exact h
  case h_2 => split <;> exact h
  case h_3 =>
    split
    · exact h
    · refine RecordsSound.congr (takeReportNow_sound (x := ⟨.linkDetached, none, true⟩) ?_ rfl) rfl
      exact h

/-- An event of UP keeps every record sound. -/
theorem PortEvent.keeps_records {s t : State} (h : RecordsSound s) (e : PortEvent s t) : RecordsSound t := by
  cases e
  case frame bytes _ =>
    unfold receiveUpstream
    split
    case h_4 f _ =>
      refine RecordsSound.congr (setScore_sound (s := countPort Stat.upRxGood s) h (s.up.score - 1)) ?_
      simp [receiveGood]
    all_goals
      refine setScore_sound ?_ _
      exact h
  case recovery => exact h.congr (by simp [recoverPort])
  case sent => exact h

/-- Carrying out a request keeps every record sound: RECOVER alone changes one (R142). -/
theorem CommandEffect.keeps_records {s t : State} (h : RecordsSound s) (e : CommandEffect s t) : RecordsSound t := by
  cases e
  case recoverCondition c => exact runCondition_sound h fun e _ => recovered_sound s.now e
  case clearStatistics g _ _ => cases g <;> exact h
  case clearNotice numbers =>
    unfold clearNotices
    dsimp only
    split <;> exact h
  case refuseRecover => exact h
  case exitConfig => exact h.congr (by simp [Machine.exitConfig])
  all_goals exact h.congr (by simp)

/-- An event of a link keeps every record: the mode applied and FBK are no part of them (R144). -/
theorem LinkEvent.keeps_recs {l : Link} {s t : State} (e : LinkEvent l s t) : t.cm.recs = s.cm.recs := by
  cases e
  case sent f _ _ =>
    have ended : (frameSent l f s).cm.recs = s.cm.recs := by
      unfold frameSent
      split
      case h_2 =>
        unfold applyTransmitted
        dsimp only
        split
        · split <;> simp
        all_goals rfl
      all_goals simp
    simpa using ended
  case poll => simp [expirePoll]
  all_goals simp

/-- After a reset every record is sound (R149). -/
theorem recordsSound_reset {s : State} (cm : s.cm = cmReset) : RecordsSound s := by
  intro c
  have cleared : condRec s c = condReset := by simp [condRec, cm, cmReset]
  rw [cleared]
  cases kind : condKind c
  case level =>
    rw [recordSound_level kind]
    simp [LevelOk, condReset, condRaw]
  case event =>
    rw [recordSound_event kind]
    simp [EventRecordSound, condReset]

/-- Every report a reset leaves is of a level condition (R149). -/
theorem mailReset_levels (v : Vsb) (links : Both Slc) : ∀ x ∈ (mailReset v links).levels, condKind x.cond = .level := by
  simp [mailReset, vehicleReports, linkReports, condKind]

/-- Every event keeps every record sound. -/
theorem Event.keeps_records {s t : State} (h : ConditionsSound s) (e : Event s t) : RecordsSound t := by
  obtain ⟨sound, _, _⟩ := (conditionsSound_iff s).mp h
  cases e
  case unmoved | linesMove | resetAsserted => exact sound
  case reset | restart => exact recordsSound_reset rfl
  case vehicle e => obtain ⟨_, _, _, cm, _⟩ := e.keeps; exact sound.congr (by rw [cm])
  case scene e => obtain ⟨_, _, _, _, _, cm, _⟩ := e.keeps; exact sound.congr (by rw [cm])
  case track e => obtain ⟨_, _, cm, _⟩ := e.keeps; exact sound.congr (by rw [cm])
  case build e => obtain ⟨_, _, _, _, cm, _⟩ := e.keeps; exact sound.congr (by rw [cm])
  case delivery e => obtain ⟨_, _, _, _, cm, _⟩ := e.keeps; exact sound.congr (by rw [cm])
  case link e => exact sound.congr e.keeps_recs
  case condition e => exact e.keeps_records h
  case port e => exact e.keeps_records sound
  case request u f rest takes effect _ _ _ =>
    have carried : RecordsSound u := effect.keeps_records (s := afterTaking rest s) sound
    exact carried

/-- What an event adds to the messages to CM is of the kind it is sent as (R135). -/
theorem Event.keeps_kinds {s t : State} (levels : ∀ x ∈ s.mail.levels, condKind x.cond = .level)
    (events : ∀ c ∈ s.mail.events, condKind c = .event) (e : Event s t) :
    (∀ x ∈ t.mail.levels, condKind x.cond = .level) ∧ ∀ c ∈ t.mail.events, condKind c = .event := by
  have ofKinds {u v : State} (mail : MailKinds u v) (sameLevels : u.mail.levels = s.mail.levels)
      (sameEvents : u.mail.events = s.mail.events) :
      (∀ x ∈ v.mail.levels, condKind x.cond = .level) ∧ ∀ c ∈ v.mail.events, condKind c = .event :=
    ⟨fun x hx => (mail.levels x hx).elim (fun old => levels x (sameLevels ▸ old)) id,
      fun c hc => (mail.events c hc).elim (fun old => events c (sameEvents ▸ old)) id⟩
  cases e
  case unmoved | linesMove | resetAsserted => exact ⟨levels, events⟩
  case reset | restart => exact ⟨mailReset_levels _ _, fun c hc => absurd hc List.not_mem_nil⟩
  case vehicle e => obtain ⟨n, _, mail⟩ := e.mail; exact ofKinds mail.toMailKinds rfl rfl
  case scene e => exact ofKinds e.mail rfl rfl
  case track e => exact ofKinds e.mail.1 rfl rfl
  case build e => exact ofKinds e.mail.toMailKinds rfl rfl
  case delivery e => exact ofKinds e.mail.toMailKinds rfl rfl
  case link e => exact ofKinds e.mail.toMailKinds rfl rfl
  case condition e => exact ofKinds e.mail.toMailKinds rfl rfl
  case port e => exact ofKinds e.mail.toMailKinds rfl rfl
  case request u f rest takes effect status data restart =>
    have carried := ofKinds effect.mail.toMailKinds rfl rfl
    exact carried

/-- Settles O58: the machines keep their records sound, and what is sent to CM is of its kind. -/
theorem conditionRecordsStaySound : Obligations.ConditionRecordsStaySound := by
  refine step_keeps (fun _ _ h => h) (fun _ _ h => h) fun s t h e => ?_
  obtain ⟨_, levels, events⟩ := (conditionsSound_iff s).mp h
  exact (conditionsSound_iff t).mpr ⟨e.keeps_records h, e.keeps_kinds levels events⟩

end Sys2Proof.Machine

/-! Vehicle frames: the check of R2 passes exactly the payloads of frames in range (R1, R179 and section 11.2). -/

namespace Sys2Proof.Machine

/-! ## One value (section 11.2) -/

/-- Bytes of a width that say a value of a set: what is read of them is that value, and no other bytes of the width say
one of the set. -/
structure ValueCodec {α : Type} (width : Nat) (read : List Byte → Option α) (bytes : α → List Byte) (ok : α → Prop) :
    Prop where
  length : ∀ v, (bytes v).length = width
  reads : ∀ v rest, ok v → read (bytes v ++ rest) = some v
  back : ∀ bs v, width ≤ bs.length → read bs = some v → ok v ∧ bs.take width = bytes v

/-- An optional value is taken just where its bytes stand at the head, if it is announced. -/
theorem ValueCodec.takeValue_iff {α : Type} {width : Nat} {read : List Byte → Option α} {bytes : α → List Byte}
    {ok : α → Prop} (codec : ValueCodec width read bytes ok) {present : Bool} {bs rest : List Byte} {x : Option α} :
    takeValue present width read bs = some (x, rest)
      ↔ bs = carried bytes x ++ rest ∧ x.isSome = present ∧ ∀ v ∈ x, ok v := by
  cases present
  case false =>
    simp only [takeValue, Bool.false_eq_true, if_false, Option.some.injEq, Prod.mk.injEq]
    constructor
    · rintro ⟨rfl, rfl⟩
      simp [carried]
    · rintro ⟨head, absent, _⟩
      obtain rfl : x = none := by simpa using absent
      exact ⟨rfl, head⟩
  case true =>
    simp only [takeValue, if_true, Option.ite_none_right_eq_some, Option.map_eq_some_iff, Prod.mk.injEq]
    constructor
    · rintro ⟨long, v, said, rfl, rfl⟩
      obtain ⟨inSet, head⟩ := codec.back bs v long said
      refine ⟨?_, rfl, fun w hw => Option.mem_some.mp hw ▸ inSet⟩
      rw [carried, Option.map_some, Option.getD_some, ← head, List.take_append_drop]
    · rintro ⟨head, present, inSet⟩
      obtain ⟨v, rfl⟩ := Option.isSome_iff_exists.mp present
      have bytesHead : bs = bytes v ++ rest := head
      refine ⟨?_, v, ?_, rfl, ?_⟩
      · rw [bytesHead, List.length_append, codec.length]
        exact Nat.le_add_right _ _
      · rw [bytesHead]
        exact codec.reads v rest (inSet v rfl)
      · rw [bytesHead, ← codec.length v, List.drop_left]

/-- A list of two bytes or more. -/
theorem exists_two_bytes {bs : List Byte} (h : 2 ≤ bs.length) : ∃ a b rest, bs = a :: b :: rest := by
  rcases bs with _ | ⟨a, _ | ⟨b, rest⟩⟩
  · cases h
  · exact absurd h (by simp)
  · exact ⟨a, b, rest, rfl⟩

/-- Two bytes are those of the number they say. -/
theorem bytes2_u16 (a b : Byte) (rest : List Byte) : bytes2 (u16 (a :: b :: rest) 0) = [a, b] := by
  have := a.isLt
  have := b.isLt
  simp only [bytes2, u16, u8, List.getD_cons_zero, List.getD_cons_succ]
  congr 1
  · apply BitVec.eq_of_toNat_eq
    simp
    omega
  · congr 1
    apply BitVec.eq_of_toNat_eq
    simp
    omega

/-- The number of two bytes is read back from them. -/
theorem u16_bytes2 {n : Nat} (h : n < 65536) (rest : List Byte) : u16 (bytes2 n ++ rest) 0 = n := by
  simp [bytes2, u16, u8]
  omega

/-- Numbers up to a bound in two bytes. -/
theorem codec_bytes2 {bound : Nat} (h : bound < 65536) :
    ValueCodec 2 (fun b => ifNatWithin 0 bound (u16 b 0)) bytes2 (· ≤ bound) where
  length _ := rfl
  reads v rest ok := by
    rw [u16_bytes2 (by omega)]
    simp [ifNatWithin, natWithin, ok]
  back bs v long said := by
    obtain ⟨a, b, rest, rfl⟩ := exists_two_bytes long
    simp only [ifNatWithin, natWithin, Option.ite_none_right_eq_some, Option.some.injEq, Bool.and_eq_true,
      decide_eq_true_eq] at said
    obtain ⟨⟨_, ok⟩, rfl⟩ := said
    exact ⟨ok, (bytes2_u16 a b rest).symm⟩

/-- Signed numbers of a range in two bytes. -/
theorem codec_sbytes2 {lo hi : Int} (low : -32768 ≤ lo) (high : hi ≤ 32767) :
    ValueCodec 2 (fun b => ifWithin lo hi (s16 b 0)) sbytes2 (fun v => lo ≤ v ∧ v ≤ hi) where
  length _ := rfl
  reads v rest ok := by
    obtain ⟨above, below⟩ := ok
    have said : s16 (sbytes2 v ++ rest) 0 = v := by
      rw [s16, sbytes2, u16_bytes2 (BitVec.isLt _), BitVec.ofNat_toNat, BitVec.setWidth_eq, BitVec.toInt_ofInt]
      exact Int.bmod_eq_of_le (by omega) (by omega)
    rw [said]
    simp [ifWithin, within, above, below]
  back bs v long said := by
    obtain ⟨a, b, rest, rfl⟩ := exists_two_bytes long
    simp only [ifWithin, within, Option.ite_none_right_eq_some, Option.some.injEq, Bool.and_eq_true,
      decide_eq_true_eq] at said
    obtain ⟨ok, rfl⟩ := said
    refine ⟨ok, ?_⟩
    have small : u16 (a :: b :: rest) 0 < 65536 := by
      have := a.isLt
      have := b.isLt
      simp [u16, u8]
      omega
    rw [sbytes2, s16, BitVec.ofInt_toInt, BitVec.toNat_ofNat, Nat.mod_eq_of_lt small, bytes2_u16]
    rfl

/-- Signed numbers of a range in one byte. -/
theorem codec_sbyte1 {lo hi : Int} (low : -128 ≤ lo) (high : hi ≤ 127) :
    ValueCodec 1 (fun b => ifWithin lo hi (s8 b 0)) sbyte1 (fun v => lo ≤ v ∧ v ≤ hi) where
  length _ := rfl
  reads v rest ok := by
    obtain ⟨above, below⟩ := ok
    have said : s8 (sbyte1 v ++ rest) 0 = v := by
      rw [s8, sbyte1, List.cons_append, List.getD_cons_zero, BitVec.toInt_ofInt]
      exact Int.bmod_eq_of_le (by omega) (by omega)
    rw [said]
    simp [ifWithin, within, above, below]
  back bs v long said := by
    obtain ⟨a, rest, rfl⟩ := List.exists_cons_of_length_pos long
    simp only [ifWithin, within, Option.ite_none_right_eq_some, Option.some.injEq, Bool.and_eq_true,
      decide_eq_true_eq] at said
    obtain ⟨ok, rfl⟩ := said
    refine ⟨ok, ?_⟩
    simp [sbyte1, s8]

/-- A one-byte code: every value by its number, and no other number. -/
theorem codec_byte1 {α : Type} {ofCode : Nat → Option α} {code : α → Nat} {ok : α → Prop}
    (small : ∀ v, ok v → code v < 256) (iff : ∀ n v, ofCode n = some v ↔ ok v ∧ n = code v) :
    ValueCodec 1 (fun b => ofCode (u8 b 0)) (fun v => byte1 (code v)) ok where
  length _ := rfl
  reads v rest inSet := by
    have said : u8 (byte1 (code v) ++ rest) 0 = code v := by
      simpa [u8, byte1] using small v inSet
    simp only [said]
    exact (iff _ v).mpr ⟨inSet, rfl⟩
  back bs v long said := by
    obtain ⟨a, rest, rfl⟩ := List.exists_cons_of_length_pos long
    obtain ⟨inSet, same⟩ := (iff _ v).mp said
    refine ⟨inSet, ?_⟩
    rw [byte1, ← same]
    simp [u8]

/-- The codes of a beam request (section 11.6). -/
theorem requestOf_eq_some (n : Nat) (r : BeamRequest) : requestOf n = some r ↔ True ∧ n = requestNo r := by
  unfold requestOf
  split <;> cases r <;> simp_all [requestNo]

/-- The codes of a road class (section 11.6). -/
theorem roadOf_eq_some (n : Nat) (r : RoadClass) : roadOf n = some r ↔ True ∧ n = roadNo r := by
  unfold roadOf
  split <;> cases r <;> simp_all [roadNo]

/-! ## The presence set (section 11.2) -/

/-- The presence set as a number, by the bits of its six fields. -/
def presence (b0 b1 b2 b3 b4 b5 : Bool) : Byte :=
  BitVec.ofNat 8 (b0.toNat + 2 * b1.toNat + 4 * b2.toNat + 8 * b3.toNat + 16 * b4.toNat + 32 * b5.toNat)

/-- Each bit of a presence set, and none above. -/
theorem presence_bits : ∀ b0 b1 b2 b3 b4 b5 : Bool, let p := presence b0 b1 b2 b3 b4 b5
    (p.getLsbD 0 = b0 ∧ p.getLsbD 1 = b1 ∧ p.getLsbD 2 = b2 ∧ p.getLsbD 3 = b3 ∧ p.getLsbD 4 = b4 ∧ p.getLsbD 5 = b5)
      ∧ p.getLsbD 6 = false ∧ p.getLsbD 7 = false
      ∧ (p = 0 ↔ (b0 || b1 || b2 || b3 || b4 || b5) = false) := by
  decide

/-- A byte with nothing in its top bits is a presence set. -/
theorem eq_presence : ∀ p : Byte, p.getLsbD 6 = false → p.getLsbD 7 = false →
    p = presence (p.getLsbD 0) (p.getLsbD 1) (p.getLsbD 2) (p.getLsbD 3) (p.getLsbD 4) (p.getLsbD 5) := by
  decide +kernel

/-! ## The whole-frame check (R2) -/

/-- The check passes just the payloads of frames in range. -/
theorem parseVehicle_eq_some_iff (payload : List Byte) (f : VehicleFrame) :
    parseVehicle payload = some f ↔ FrameInRange f ∧ payload = vehiclePayload f := by
  have speedCodec := codec_bytes2 (bound := 2000) (by decide)
  have steerCodec := codec_sbytes2 (lo := -7200) (hi := 7200) (by decide) (by decide)
  have pitchCodec := codec_sbyte1 (lo := -50) (hi := 50) (by decide) (by decide)
  have requestCodec := codec_byte1 (fun r _ => by cases r <;> decide) requestOf_eq_some
  have roadCodec := codec_byte1 (fun r _ => by cases r <;> decide) roadOf_eq_some
  have weatherCodec := codec_byte1 (ofCode := ifNatWithin 0 7) (code := id) (ok := (· ≤ 7))
    (fun v (h : v ≤ 7) => show v < 256 by omega) (fun n v => by simp [ifNatWithin, natWithin]; omega)
  rcases payload with _ | ⟨p, bs⟩
  case nil => simp [parseVehicle, vehiclePayload]
  case cons =>
    simp only [parseVehicle, Option.ite_none_left_eq_some, Option.bind_eq_bind, Option.bind_eq_some_iff, Prod.exists,
      speedCodec.takeValue_iff, steerCodec.takeValue_iff, pitchCodec.takeValue_iff, requestCodec.takeValue_iff,
      roadCodec.takeValue_iff, weatherCodec.takeValue_iff]
    constructor
    case mp =>
      rintro ⟨head, speed, _, ⟨rfl, hasSpeed, speedOk⟩, steer, _, ⟨rfl, hasSteer, steerOk⟩, pitch, _,
        ⟨rfl, hasPitch, pitchOk⟩, request, _, ⟨rfl, hasRequest, _⟩, road, _, ⟨rfl, hasRoad, _⟩, weather, rest,
        ⟨rfl, hasWeather, weatherOk⟩, whole⟩
      simp only [Option.ite_none_right_eq_some, Option.some.injEq, List.isEmpty_iff] at whole
      obtain ⟨rfl, rfl⟩ := whole
      simp only [Bool.or_eq_true, decide_eq_true_eq, not_or, Bool.not_eq_true] at head
      obtain ⟨⟨nonzero, bit6⟩, bit7⟩ := head
      have byte := eq_presence p bit6 bit7
      rw [← hasSpeed, ← hasSteer, ← hasPitch, ← hasRequest, ← hasRoad, ← hasWeather] at byte
      obtain ⟨_, _, _, zero_iff⟩ := presence_bits speed.isSome steer.isSome pitch.isSome request.isSome road.isSome
        weather.isSome
      refine ⟨⟨?_, speedOk, steerOk, pitchOk, weatherOk⟩, ?_⟩
      · rw [byte, zero_iff, Bool.not_eq_false] at nonzero
        exact nonzero
      · rw [byte]
        simp [vehiclePayload, presence, List.append_assoc]
    case mpr =>
      rintro ⟨⟨named, speedOk, steerOk, pitchOk, weatherOk⟩, payload⟩
      obtain ⟨byte, rfl⟩ := List.cons_eq_cons.mp payload
      obtain ⟨⟨b0, b1, b2, b3, b4, b5⟩, bit6, bit7, zero_iff⟩ := presence_bits f.speed.isSome f.steer.isSome
        f.pitch.isSome f.request.isSome f.road.isSome f.weather.isSome
      change p = presence _ _ _ _ _ _ at byte
      rw [← byte] at b0 b1 b2 b3 b4 b5 bit6 bit7 zero_iff
      have nonzero : p ≠ 0 := by
        rw [Ne, zero_iff, named]
        decide
      refine ⟨by rw [bit6, bit7, decide_eq_false nonzero]; decide, f.speed, _, ⟨?_, b0.symm, speedOk⟩, f.steer, _, ⟨rfl, b1.symm, steerOk⟩,
        f.pitch, _, ⟨rfl, b2.symm, pitchOk⟩, f.request, _, ⟨rfl, b3.symm, fun _ _ => trivial⟩, f.road, _,
        ⟨rfl, b4.symm, fun _ _ => trivial⟩, f.weather, [], ⟨rfl, b5.symm, weatherOk⟩, rfl⟩
      simp [List.append_assoc]

/-- Settles O14: the check is one equivalence. -/
theorem vehiclePayloadsDecode : Obligations.VehiclePayloadsDecode :=
  ⟨fun f inRange => (parseVehicle_eq_some_iff _ f).mpr ⟨inRange, rfl⟩, fun payload f =>
    (parseVehicle_eq_some_iff payload f).mp⟩

end Sys2Proof.Machine

/-! The vehicle record and the pins: what each event of VSB leaves of them, and that every event keeps them sound
(sections 1.3 to 1.5). -/

namespace Sys2Proof.Machine

/-! ## The vehicle record (R14 to R17) -/

/-- The record fields are what the sources select, and the raw values last sent the ones that stand. -/
def RecordFollows (p : VehicleParams) (v : Vsb) : Prop :=
  v.speed = selectSpeed p v ∧ v.steer = selectSteer p v ∧ v.sent = vehicleRaws p v

/-- The record is sound where it follows, unless new Vehicle Parameters wait. -/
theorem vehicleRecordSound_iff (s : State) :
    VehicleRecordSound s ↔ (s.mail.vehicleParams = 0 → RecordFollows s.mu.tables.vehicle s.vsb) := Iff.rfl

/-- It stays sound where VSB is left alone and no Vehicle Parameters come into force unseen. -/
theorem VehicleRecordSound.frame {s t : State} (h : VehicleRecordSound s) (vsb : t.vsb = s.vsb) (mail : MailKinds s t) :
    VehicleRecordSound t := by
  intro none
  obtain ⟨before, same⟩ := mail.vehicle none
  rw [vsb, same]
  exact h before

/-- It stays sound under a build trigger. -/
theorem VehicleRecordSound.after_trigger {s : State} (h : VehicleRecordSound s) : VehicleRecordSound (trigger s) :=
  h.frame (by simp) (MailFrame.after_trigger (.refl s)).toMailKinds

/-- What follows a change that concerns speed, of any state. -/
theorem speedChanged_whole (s : State) : speedChanged s = afterSpeed s.vsb s := speedChanged_eq s.vsb s

/-- What follows a change that concerns steering, of any state. -/
theorem steerChanged_whole (s : State) : steerChanged s = afterSteer s.vsb s := steerChanged_eq s.vsb s

/-- What follows a change that concerns both, of any state. -/
theorem vehicleChanged_whole (s : State) : vehicleChanged s = afterVehicle s.vsb s := vehicleChanged_eq s.vsb s

section AfterAChange

variable {v : Vsb} {s : State}

/-- What follows a change that leaves record fields and disagreement in place is a sound record (R17). -/
theorem withVsb_follows (follows : s.mail.vehicleParams = 0 → v.speed = selectSpeed s.mu.tables.vehicle v
    ∧ v.steer = selectSteer s.mu.tables.vehicle v ∧ v.sent.disagree = disagreeRaw s.mu.tables.vehicle v) :
    VehicleRecordSound (withVsb v s) := by
  intro none
  obtain ⟨speed, steer, disagree⟩ := follows none
  refine ⟨speed, steer, ?_⟩
  change rawsWith v v.sent.disagree = rawsWith v (disagreeRaw s.mu.tables.vehicle v)
  rw [disagree]

/-- What follows a change that concerns speed is a sound record, where steering stands (section 1.5). -/
theorem afterSpeed_follows (follows : s.mail.vehicleParams = 0 →
    v.steer = selectSteer s.mu.tables.vehicle v ∧ v.sent.disagree = disagreeRaw s.mu.tables.vehicle v) :
    VehicleRecordSound (afterSpeed v s) :=
  withVsb_follows fun none => ⟨rfl, follows none⟩

/-- What follows a change that concerns steering is a sound record, where speed stands (section 1.5). -/
theorem afterSteer_follows (follows : s.mail.vehicleParams = 0 → v.speed = selectSpeed s.mu.tables.vehicle v) :
    VehicleRecordSound (afterSteer v s) :=
  withVsb_follows fun none => ⟨follows none, rfl, rfl⟩

/-- What follows a change that concerns both is a sound record, whatever stood before (section 1.5). -/
theorem afterVehicle_follows : VehicleRecordSound (afterVehicle v s) :=
  afterSteer_follows fun _ => rfl

end AfterAChange

/-- The record is sound after a frame taken from the queue (R2). -/
theorem takeVehicleFrame_follows {s : State} (h : VehicleRecordSound s) : VehicleRecordSound (takeVehicleFrame s) := by
  unfold takeVehicleFrame
  split
  · exact h
  · dsimp only
    split
    · exact h
    · unfold applyVehicleFrame
      dsimp only
      rw [vehicleChanged_whole]
      split
      · exact afterVehicle_follows.after_trigger
      · exact afterVehicle_follows

/-- The record is sound after a staleness expiry: pitch, road and weather are no part of it (R3). -/
theorem expireField_follows {s : State} (h : VehicleRecordSound s) (field : VField) :
    VehicleRecordSound (expireField field s) := by
  cases field
  case speed =>
    change VehicleRecordSound (speedChanged _)
    rw [speedChanged_whole]
    refine afterSpeed_follows fun none => ?_
    obtain ⟨_, steer, sent⟩ := h none
    exact ⟨steer, congrArg VehicleRaws.disagree sent⟩
  case steering =>
    change VehicleRecordSound (steerChanged _)
    rw [steerChanged_whole]
    exact afterSteer_follows fun none => (h none).1
  case request =>
    change VehicleRecordSound (trigger (reportStale _))
    rw [reportStale_eq]
    refine VehicleRecordSound.after_trigger (withVsb_follows fun none => ?_)
    obtain ⟨speed, steer, sent⟩ := h none
    exact ⟨speed, steer, congrArg VehicleRaws.disagree sent⟩
  all_goals exact h

/-- The record is sound after an edge of SPD: only a new pin speed concerns it (R5). -/
theorem takeEdge_follows {s : State} (h : VehicleRecordSound s) : VehicleRecordSound (takeEdge s) := by
  unfold takeEdge
  split
  · exact h
  · split
    · exact h
    · rw [captureEdge_eq]
      split
      case isTrue same =>
        intro none
        obtain ⟨speed, steer, sent⟩ := h none
        refine ⟨speed.trans ?_, steer, sent⟩
        simp only [selectSpeed, capturedVsb, same]
      case isFalse =>
        refine afterSpeed_follows fun none => ?_
        obtain ⟨_, steer, sent⟩ := h none
        exact ⟨steer, congrArg VehicleRaws.disagree sent⟩

/-- The record is sound after an event of VSB. -/
theorem VehicleEvent.keeps_record {s t : State} (h : VehicleRecordSound s) (e : VehicleEvent s t) :
    VehicleRecordSound t := by
  cases e
  case frame => exact takeVehicleFrame_follows h
  case staleness field => exact expireField_follows h field
  case edge => exact takeEdge_follows h
  case speedTimeout =>
    rw [expireSpeedTimeout_eq]
    refine afterSpeed_follows fun none => ?_
    obtain ⟨_, steer, sent⟩ := h none
    exact ⟨steer, congrArg VehicleRaws.disagree sent⟩
  case step line =>
    have flipped : VehicleRecordSound (flipLine line s) := by cases line <;> exact h
    by_cases inside : -32768 ≤ sampledCounter line s ∧ sampledCounter line s ≤ 32767
    · rw [stepCounter_inside inside]
      exact afterSteer_follows fun none => (flipped none).1
    · rw [stepCounter_beyond inside]
      exact afterSteer_follows fun none => (flipped none).1
  case phaseError =>
    unfold countPhaseError
    dsimp only
    rw [steerChanged_whole]
    split
    · exact afterSteer_follows fun none => (h none).1
    · exact h
  case parameters =>
    unfold takeVehicleParameters
    rw [vehicleChanged_whole]
    exact afterVehicle_follows

/-- The record after a reset is sound (R21). -/
theorem vsbReset_follows (p : VehicleParams) (pin : SteerPin) : RecordFollows p (vsbReset p pin) :=
  ⟨rfl, rfl, rfl⟩

/-- Carrying out a request leaves VSB, but for its statistics or SET_STEER_ZERO. -/
theorem CommandEffect.keeps_vsb {s t : State} (e : CommandEffect s t) :
    (∃ stats, t.vsb = { s.vsb with stats := stats }) ∨ t = Machine.steerZero s := by
  cases e
  case clearStatistics g _ _ => cases g <;> exact .inl ⟨_, rfl⟩
  case steerZero => exact .inr rfl
  case clearNotice numbers =>
    unfold clearNotices
    dsimp only
    split <;> exact .inl ⟨_, rfl⟩
  case exitConfig => exact .inl ⟨s.vsb.stats, by simp [Machine.exitConfig]⟩
  all_goals exact .inl ⟨s.vsb.stats, by simp⟩

/-- The record is sound after a request carried out. -/
theorem CommandEffect.keeps_record {s t : State} (h : VehicleRecordSound s) (e : CommandEffect s t) :
    VehicleRecordSound t := by
  rcases e.keeps_vsb with ⟨stats, vsb⟩ | rfl
  · have counted : VehicleRecordSound { s with vsb := { s.vsb with stats := stats } } := h
    intro none
    obtain ⟨before, same⟩ := e.mail.vehicle none
    rw [vsb, same]
    exact h before
  · unfold Machine.steerZero
    rw [steerChanged_whole]
    exact afterSteer_follows fun none => (h none).1

/-- The record is sound after every event. -/
theorem Event.keeps_record {s t : State} (h : VehicleRecordSound s) (e : Event s t) : VehicleRecordSound t := by
  cases e
  case unmoved | linesMove | resetAsserted => exact h
  case reset | restart => exact fun _ => vsbReset_follows _ _
  case vehicle e => exact e.keeps_record h
  case scene e => obtain ⟨vsb, _⟩ := e.keeps; exact h.frame vsb e.mail
  case track e => obtain ⟨vsb, _⟩ := e.keeps; exact h.frame vsb e.mail.1
  case build e => obtain ⟨vsb, _⟩ := e.keeps; exact h.frame vsb e.mail.toMailKinds
  case delivery e => obtain ⟨vsb, _⟩ := e.keeps; exact h.frame vsb e.mail.toMailKinds
  case link e => obtain ⟨vsb, _⟩ := e.keeps; exact h.frame vsb e.mail.toMailKinds
  case condition e => obtain ⟨vsb, _⟩ := e.keeps; exact h.frame vsb e.mail.toMailKinds
  case port e => obtain ⟨vsb, _⟩ := e.keeps; exact h.frame vsb e.mail.toMailKinds
  case request u f rest takes effect _ _ _ =>
    have carried : VehicleRecordSound u := effect.keeps_record (s := afterTaking rest s) h
    exact carried

end Sys2Proof.Machine

/-! Events that touch links, tables and builds by build triggers alone: what every trigger keeps, they keep. -/

namespace Sys2Proof.Machine

/-- The same MU, the same build in flight, and RESETN as it was. -/
structure SameTables (s t : State) : Prop where
  mu : t.mu = s.mu
  build : t.pb.build = s.pb.build
  rebuild : t.pb.rebuild = s.pb.rebuild
  inReset : t.inReset = s.inReset

/-- And the same links and DU. -/
structure SameCore (s t : State) : Prop extends SameTables s t where
  links : t.links = s.links
  du : t.du = s.du

/-- A state reached by build triggers, and changes that leave what `Same` says (R61). -/
inductive Triggers (Same : State → State → Prop) (s : State) : State → Prop
  | none : Triggers Same s s
  | same {t u : State} (before : Triggers Same s t) (same : Same t u) : Triggers Same s u
  | trigger {t : State} (before : Triggers Same s t) : Triggers Same s (Machine.trigger t)

section Closure

variable {Same : State → State → Prop} {s t u : State}

/-- What every such change and every trigger keeps stays. -/
theorem Triggers.keeps {P : State → Prop} (congr : ∀ u v, Same u v → P u → P v)
    (trigger : ∀ u, P u → P (Machine.trigger u)) (h : Triggers Same s t) (start : P s) : P t := by
  induction h with
  | none => exact start
  | same _ same ih => exact congr _ _ same ih
  | trigger _ ih => exact trigger _ ih

/-- One after the other. -/
theorem Triggers.trans (h : Triggers Same s t) (h' : Triggers Same t u) : Triggers Same s u :=
  h'.keeps (P := Triggers Same s) (fun _ _ same before => .same before same) (fun _ before => .trigger before) h

/-- A fold of them. -/
theorem Triggers.foldl {α : Type} {f : State → α → State} (step : ∀ s a, Triggers Same s (f s a)) (xs : List α)
    (s : State) : Triggers Same s (xs.foldl f s) :=
  List.foldlRecOn (motive := Triggers Same s) xs f .none fun t h a _ => h.trans (step t a)

/-- What leaves more leaves less. -/
theorem Triggers.mono {Same' : State → State → Prop} (weaker : ∀ s t, Same s t → Same' s t) (h : Triggers Same s t) :
    Triggers Same' s t :=
  h.keeps (P := Triggers Same' s) (fun _ _ same before => .same before (weaker _ _ same))
    (fun _ before => .trigger before) .none

end Closure

section Operations

variable {s t : State}

/-- The action level worked out again (R143). -/
theorem Triggers.after_reworkAction (h : Triggers SameCore s t) : Triggers SameCore s (reworkAction t) := by
  unfold reworkAction
  dsimp only
  split
  · exact h
  · exact .trigger (h.same ⟨⟨rfl, rfl, rfl, rfl⟩, rfl, rfl⟩)

/-- A condition's move settled (R143, R145, R146). -/
theorem Triggers.after_settle {c : Cond} {m : Moved} (h : Triggers SameCore s t) : Triggers SameCore s (settle c m t) :=
  settle_preserves (fun _ => h.same ⟨⟨rfl, rfl, rfl, rfl⟩, rfl, rfl⟩) (fun _ h => h.after_reworkAction)
    fun _ h => h.same ⟨⟨rfl, rfl, rfl, rfl⟩, rfl, rfl⟩

/-- A raw report taken (R135). -/
theorem Triggers.after_takeLevelReport {x : LevelReport} (h : Triggers SameCore s t) : Triggers SameCore s (takeLevelReport x t) := by
  unfold takeLevelReport
  dsimp only
  split
  · exact h.same ⟨⟨rfl, rfl, rfl, rfl⟩, rfl, rfl⟩
  · exact .after_settle (h.same ⟨⟨rfl, rfl, rfl, rfl⟩, rfl, rfl⟩)

/-- A raw report taken within the event that sends it (assumption 28). -/
theorem Triggers.after_takeReportNow {x : LevelReport} (h : Triggers SameCore s t) : Triggers SameCore s (takeReportNow x t) := by
  unfold takeReportNow
  dsimp only
  refine .trans (.same h ?_) (.foldl (f := fun u y => takeLevelReport y u)
    (fun u _ => (Triggers.none (s := u)).after_takeLevelReport) _ _)
  exact ⟨⟨rfl, rfl, rfl, rfl⟩, rfl, rfl⟩

/-- The error score changed (R151 to R153). -/
theorem Triggers.after_setScore {n : Nat} (h : Triggers SameCore s t) : Triggers SameCore s (setScore n t) := by
  unfold setScore
  dsimp only
  split
  case h_1 => exact h.same ⟨⟨rfl, rfl, rfl, rfl⟩, rfl, rfl⟩
  case h_2 => split <;> exact h.same ⟨⟨rfl, rfl, rfl, rfl⟩, rfl, rfl⟩
  case h_3 =>
    split
    · exact h.same ⟨⟨rfl, rfl, rfl, rfl⟩, rfl, rfl⟩
    · unfold detach
      dsimp only
      refine Triggers.same (.after_takeReportNow ?_) ⟨⟨rfl, rfl, rfl, rfl⟩, rfl, rfl⟩
      exact h.same ⟨⟨rfl, rfl, rfl, rfl⟩, rfl, rfl⟩

end Operations

/-! ## Whole events -/

/-- An event of VSB. -/
theorem VehicleEvent.triggers {s t : State} (e : VehicleEvent s t) : Triggers SameCore s t := by
  cases e
  case frame =>
    unfold takeVehicleFrame
    split
    · exact .none
    · dsimp only
      split
      · exact .same .none ⟨⟨rfl, rfl, rfl, rfl⟩, rfl, rfl⟩
      · unfold applyVehicleFrame
        dsimp only
        split
        · exact .trigger (.same .none ⟨⟨by simp, by simp, by simp, by simp⟩, by simp, by simp⟩)
        · exact .same .none ⟨⟨by simp, by simp, by simp, by simp⟩, by simp, by simp⟩
  case staleness field =>
    cases field
    case request => exact .trigger (.same .none ⟨⟨by simp, by simp, by simp, by simp⟩, by simp, by simp⟩)
    all_goals exact .same .none ⟨⟨by simp [expireField], by simp [expireField],
      by simp [expireField], by simp⟩, by simp [expireField], by simp⟩
  case step line => cases line <;> exact .same .none ⟨⟨by simp [flipLine], by simp [flipLine],
      by simp [flipLine], by simp [flipLine]⟩, by simp [flipLine], by simp [flipLine]⟩
  case speedTimeout => exact .same .none ⟨⟨by simp [expireSpeedTimeout], by simp [expireSpeedTimeout],
      by simp [expireSpeedTimeout], by simp [expireSpeedTimeout]⟩, by simp [expireSpeedTimeout], by simp [expireSpeedTimeout]⟩
  case parameters => exact .same .none ⟨⟨by simp [takeVehicleParameters], by simp [takeVehicleParameters],
      by simp [takeVehicleParameters], by simp [takeVehicleParameters]⟩, by simp [takeVehicleParameters], by simp [takeVehicleParameters]⟩
  all_goals exact .same .none ⟨⟨by simp, by simp, by simp, by simp⟩, by simp, by simp⟩

/-- An event of SA. -/
theorem SceneEvent.triggers {s t : State} (e : SceneEvent s t) : Triggers SameCore s t := by
  obtain ⟨_, _, pb, links, du, _, mu, inReset, _⟩ := e.keeps
  exact .same .none ⟨⟨mu, pb ▸ rfl, pb ▸ rfl, inReset⟩, links, du⟩

/-- An event of TU. -/
theorem TrackEvent.triggers {s t : State} (e : TrackEvent s t) : Triggers SameCore s t := by
  cases e
  case scene x rest _ =>
    rw [takeScene_eq x _ _ rfl]
    exact .trigger (.same .none ⟨⟨rfl, rfl, rfl, rfl⟩, rfl, rfl⟩)
  case hold => exact .trigger (.same .none ⟨⟨rfl, rfl, rfl, rfl⟩, rfl, rfl⟩)
  case aging =>
    refine .same .none ?_
    unfold ageTracks
    exact ⟨⟨rfl, rfl, rfl, rfl⟩, rfl, rfl⟩
  case policy => exact .same .none ⟨⟨rfl, rfl, rfl, rfl⟩, rfl, rfl⟩

/-- An event of CM. -/
theorem ConditionEvent.triggers {s t : State} (e : ConditionEvent s t) : Triggers SameCore s t := by
  cases e
  case report x _ =>
    refine .after_takeLevelReport ?_
    exact .same .none ⟨⟨rfl, rfl, rfl, rfl⟩, rfl, rfl⟩
  case event c _ => exact .after_settle (.same .none ⟨⟨rfl, rfl, rfl, rfl⟩, rfl, rfl⟩)
  case persistence | levelRecovery | eventRecovery => exact .after_settle .none
  case table x rest _ =>
    have relatched (u : State) (c : Cond) : Triggers SameCore u (relatch x u c) := by
      unfold relatch
      split
      · exact .after_settle .none
      · exact .none
    refine .after_reworkAction (.trans (.same .none ?_) (.foldl relatched _ _))
    exact ⟨⟨rfl, rfl, rfl, rfl⟩, rfl, rfl⟩

/-- An event of DU: no build is triggered. -/
theorem DeliveryEvent.sameTables {s t : State} (e : DeliveryEvent s t) : SameTables s t := by
  obtain ⟨_, _, _, pb, _, _, mu, inReset, _⟩ := e.keeps
  exact ⟨mu, pb ▸ rfl, pb ▸ rfl, inReset⟩

/-- A STATUS taken may trigger a build (R107). -/
theorem Triggers.after_takeStatus {s t : State} {l : Link} {k : Slot} {band : Nat} {selfFallback : Bool}
    {failed : List Nat} (h : Triggers SameTables s t) :
    Triggers SameTables s (takeStatus l k band selfFallback failed t) := by
  refine h.trans ?_
  have reported {u : State} (before : Triggers SameTables t u) : Triggers SameTables t (reportLink l u) :=
    before.same ⟨by simp, by simp, by simp, by simp⟩
  unfold takeStatus
  dsimp only
  refine reported ?_
  have counted : Triggers SameTables t (if decide ((moduleRec t l k).state ≠ .active)
      && decide (stateAfterStatus t.mu.isolation (moduleRec t l k) = .active)
    then countLink l Stat.lnkJoins (countLink l Stat.lnkStatusTaken
      (updModule l k (recordAfterStatus t.mu.isolation band selfFallback failed) t))
    else countLink l Stat.lnkStatusTaken
      (updModule l k (recordAfterStatus t.mu.isolation band selfFallback failed) t)) := by
    split <;> exact .same .none ⟨rfl, rfl, rfl, rfl⟩
  split
  · exact counted.trigger
  · exact counted

/-- A link's frame taken. -/
theorem Triggers.after_receiveLink {s t : State} {l : Link} {bytes : List Byte} (h : Triggers SameTables s t) :
    Triggers SameTables s (receiveLink l bytes t) := by
  unfold receiveLink
  split
  case h_1 | h_2 => exact h.same ⟨rfl, rfl, rfl, rfl⟩
  case h_3 f _ =>
    split
    case isTrue => exact h.same ⟨rfl, rfl, rfl, rfl⟩
    case isFalse =>
      have heard := h.same (u := countLink l Stat.lnkRxFrames
        (updModule l (frameSlot f) (fun m => { m with misses := 0 }) t)) ⟨rfl, rfl, rfl, rfl⟩
      cases f
      case status => exact heard.after_takeStatus
      case blockAck => exact heard.same ⟨rfl, rfl, rfl, rfl⟩
      case passUp => exact heard.same ⟨by simp [takeModuleFrame], by simp [takeModuleFrame], by simp [takeModuleFrame],
          by simp⟩

/-- An event of a link. -/
theorem LinkEvent.triggers {l : Link} {s t : State} (e : LinkEvent l s t) : Triggers SameTables s t := by
  cases e
  case frame => exact .after_receiveLink .none
  case replyTimeout => exact .same .none ⟨by simp, by simp, by simp, by simp⟩
  case poll => exact .same .none ⟨rfl, rfl, rfl, rfl⟩
  case wakeEnd => exact .same .none ⟨rfl, rfl, rfl, rfl⟩
  case sent f _ _ => exact .same .none ⟨by simp, by simp, by simp, by simp⟩

/-- An event of UP: entering DETACHED, CM may trigger a build (R153). -/
theorem PortEvent.triggers {s t : State} (e : PortEvent s t) : Triggers SameTables s t := by
  cases e
  case frame bytes _ =>
    have scored (n : Nat) (u : State) : Triggers SameTables u (setScore n u) :=
      Triggers.none.after_setScore.mono fun _ _ => SameCore.toSameTables
    unfold receiveUpstream
    split
    case h_4 f _ =>
      refine .same (.trans (.same .none ?_) (scored (s.up.score - 1) (countPort Stat.upRxGood s)))
        ⟨by simp [receiveGood], by simp [receiveGood], by simp [receiveGood], by simp [receiveGood]⟩
      exact ⟨rfl, rfl, rfl, rfl⟩
    all_goals
      refine .trans (.same .none ?_) (scored _ _)
      exact ⟨rfl, rfl, rfl, rfl⟩
  case recovery => exact .same .none ⟨by simp [recoverPort], by simp [recoverPort], by simp [recoverPort],
      by simp [recoverPort]⟩
  case sent => exact .same .none ⟨rfl, rfl, rfl, rfl⟩

end Sys2Proof.Machine

/-! The pins of VSB stay in their ranges, and the counts per degree of the live and the staged table in theirs (sections
1.3, 1.4 and 1.6). -/

namespace Sys2Proof.Machine

/-! ## Counts per degree in the tables (section 1.6) -/

/-- The counts per degree of the live and of the staged table lie in their range. -/
def CountsOk (s : State) : Prop :=
  CountsPerDegreeOk s.mu.tables.vehicle ∧ ∀ p ∈ s.mu.staged.vehicle, CountsPerDegreeOk p

/-- They do where MU is the same. -/
theorem CountsOk.congr {s t : State} (h : CountsOk s) (mu : t.mu = s.mu) : CountsOk t := by
  unfold CountsOk
  rw [mu]
  exact h

/-- They do with the staged tables in force (R64). -/
theorem overlay_counts {staged : Staging} {t : Tables} (live : CountsPerDegreeOk t.vehicle)
    (ok : ∀ p ∈ staged.vehicle, CountsPerDegreeOk p) : CountsPerDegreeOk (overlay staged t).vehicle := by
  cases vehicle : staged.vehicle
  case none => simpa [overlay, vehicle] using live
  case some p => simpa [overlay, vehicle] using ok p vehicle

/-- They do when a build starts, which may take a commit (R64). -/
theorem CountsOk.buildStart {s : State} (h : CountsOk s) : CountsOk (buildStart s) := by
  obtain ⟨live, staged⟩ := h
  refine CountsOk.congr (s := afterCommit s) ?_ (buildStart_mu s)
  cases pending : s.mu.commitPending
  case false => rw [afterCommit_none pending]; exact ⟨live, staged⟩
  case true =>
    rw [afterCommit_pending pending]
    exact ⟨overlay_counts live staged, fun p hp => nomatch hp⟩

/-- They do under a build trigger. -/
theorem CountsOk.trigger {s : State} (h : CountsOk s) : CountsOk (trigger s) := by
  unfold Machine.trigger
  split
  · exact h.buildStart
  · exact h

/-- They do where tables change by build triggers alone. -/
theorem CountsOk.ofTriggers {s t : State} (h : CountsOk s) (triggers : Triggers SameTables s t) : CountsOk t :=
  triggers.keeps (fun _ _ same ok => ok.congr same.mu) (fun _ ok => ok.trigger) h

/-- The check of a Vehicle Parameters entry allows no other counts per degree (section 1.6, R174). -/
theorem decodeVehicle_counts {bs : List Byte} {p : VehicleParams} (h : decodeVehicle bs = some p) :
    CountsPerDegreeOk p := by
  simp only [decodeVehicle, Option.bind_eq_bind, Option.bind_eq_some_iff, field1_eq_some,
    Option.some.injEq] at h
  obtain ⟨_, _, _, _, _, _, _, _, _, _, _, _, _, _, _, _, _, _, _, _, _, ⟨inRange, rfl⟩, _, _, rfl⟩ := h
  exact inRange

/-- Entries written keep the counts per degree in range (R171, R174). -/
theorem writeEntries_counts {id : TableId} {entries : List (List Byte)} {n : Nat} {t u : Tables}
    (written : writeEntries id n entries t = .ok u) (ok : CountsPerDegreeOk t.vehicle) : CountsPerDegreeOk u.vehicle := by
  refine writeEntries_keeps (P := fun t => CountsPerDegreeOk t.vehicle) (fun n bs t u entry ok => ?_) written ok
  have only := writeEntry_onlyTable entry
  cases id
  case vehicle =>
    simp only [writeEntry, Option.map_eq_some_iff] at entry
    obtain ⟨p, decoded, rfl⟩ := entry
    exact decodeVehicle_counts decoded
  all_goals (simp only [OnlyTable] at only; rw [only]; exact ok)

/-- The staged copy of a table is that table of the copy written (R171). -/
theorem stageTable_vehicle (id : TableId) (t : Tables) (st : Staging) :
    (stageTable id t st).vehicle = if id = .vehicle then some t.vehicle else st.vehicle := by
  cases id <;> rfl

/-- A request carried out keeps the counts per degree in range. -/
theorem CommandEffect.keeps_counts {s t : State} (h : CountsOk s) (e : CommandEffect s t) : CountsOk t := by
  obtain ⟨live, staged⟩ := h
  cases e
  case loadLive id first entries u _ written =>
    refine CountsOk.congr (s := { s with mu := { s.mu with tables := u } }) ?_ (by simp)
    exact ⟨writeEntries_counts written live, staged⟩
  case loadStaged id first entries u _ _ written =>
    refine ⟨live, fun p hp => ?_⟩
    have ok := writeEntries_counts written (overlay_counts live staged)
    simp only [stageTable_vehicle] at hp
    split at hp
    · exact Option.mem_some.mp hp ▸ ok
    · exact staged p hp
  case commit => exact CountsOk.trigger ⟨live, staged⟩
  case rejectCommit | discard => exact ⟨live, fun p hp => nomatch hp⟩
  case enterConfig =>
    refine CountsOk.trigger ?_
    exact ⟨live, fun p hp => nomatch hp⟩
  case exitConfig =>
    refine CountsOk.trigger (CountsOk.congr (s := { s with mu := { s.mu with config := .run, tablesDefault := false } })
      ?_ (by simp))
    exact ⟨live, staged⟩
  case setHold value =>
    unfold setHoldLow
    split
    · exact ⟨live, staged⟩
    · exact CountsOk.trigger ⟨live, staged⟩
  case setIsolation on => exact CountsOk.congr (s := { s with mu := { s.mu with isolation := on } }) ⟨live, staged⟩ (by simp)
  case clearStatistics g _ _ => cases g <;> exact ⟨live, staged⟩
  case clearNotice numbers =>
    unfold clearNotices
    dsimp only
    split <;> exact ⟨live, staged⟩
  case recoverCondition =>
    have sound : CountsOk s := ⟨live, staged⟩
    exact sound.ofTriggers (Triggers.none.after_settle.mono fun _ _ => SameCore.toSameTables)
  case steerZero => exact CountsOk.congr ⟨live, staged⟩ (by simp)
  case recoverModule => exact CountsOk.congr ⟨live, staged⟩ (by simp)
  all_goals exact ⟨live, staged⟩

/-- Every event keeps the counts per degree in range. -/
theorem Event.keeps_counts {s t : State} (h : CountsOk s) (e : Event s t) : CountsOk t := by
  have toTables {u v : State} : Triggers SameCore u v → Triggers SameTables u v :=
    Triggers.mono fun _ _ => SameCore.toSameTables
  cases e
  case unmoved | linesMove | resetAsserted => exact h
  case reset =>
    exact ⟨(by decide : 1 ≤ builtInVehicle.countsPerDegree ∧ builtInVehicle.countsPerDegree ≤ 64),
      fun p hp => nomatch hp⟩
  case restart => exact ⟨h.1, fun p hp => nomatch hp⟩
  case vehicle e => exact h.ofTriggers (toTables e.triggers)
  case scene e => exact h.ofTriggers (toTables e.triggers)
  case track e => exact h.ofTriggers (toTables e.triggers)
  case build e =>
    cases e
    case refresh => exact CountsOk.trigger h
    case completion b _ =>
      unfold completeBuild
      dsimp only
      split
      · refine CountsOk.buildStart ?_
        exact h
      · exact h
  case delivery e => exact h.congr e.sameTables.mu
  case link e => exact h.ofTriggers e.triggers
  case condition e => exact h.ofTriggers (toTables e.triggers)
  case port e => exact h.ofTriggers e.triggers
  case request u f rest takes effect _ _ _ =>
    have carried : CountsOk u := effect.keeps_counts (s := afterTaking rest s) h
    exact carried

/-! ## The pins (sections 1.3 and 1.4) -/

/-- The steering pin and the pin speed in their ranges. -/
def PinsOk (v : Vsb) : Prop :=
  (-32768 ≤ v.pin.counter ∧ v.pin.counter ≤ 32767) ∧ (-78848 ≤ v.pin.reference ∧ v.pin.reference ≤ 78847)
    ∧ (-7200 ≤ v.pin.angle ∧ v.pin.angle ≤ 7200) ∧ v.pin.phaseErrors ≤ 8 ∧ v.pinSpeed ≤ 2000

/-- Pins and counts in range: what the statement asks of a state. -/
theorem pinsSound_iff (s : State) : PinsSound s ↔ PinsOk s.vsb ∧ CountsOk s := by
  unfold PinsSound PinsOk CountsOk
  tauto

/-- The pin angle lies in its range (R11). -/
theorem pinAngleOf_range (counter reference : Int) (cpd : Nat) :
    -7200 ≤ pinAngleOf counter reference cpd ∧ pinAngleOf counter reference cpd ≤ 7200 := by
  rw [pinAngleOf, clamp_eq (by decide)]
  omega

/-- The pin speed lies in its range (R6). -/
theorem pinSpeedOf_le (period pulses : Nat) : pinSpeedOf period pulses ≤ 2000 := by
  unfold pinSpeedOf
  split <;> omega

/-- A step of the counter keeps the pin in range (R8, R11). -/
theorem PinsOk.stepped {v : Vsb} (h : PinsOk v) (cpd : Nat) {n : Int} (inside : -32768 ≤ n ∧ n ≤ 32767) {speed : Nat}
    (slow : speed ≤ 2000) : PinsOk { v with pin := steppedPin cpd n v.pin, pinSpeed := speed } := by
  obtain ⟨_, reference, angle, errors, _⟩ := h
  refine ⟨inside, reference, ?_, errors, slow⟩
  change -7200 ≤ (if v.pin.referenced then _ else _) ∧ (if v.pin.referenced then _ else _) ≤ (7200 : Int)
  split
  · exact pinAngleOf_range ..
  · exact angle

/-- Half the counts of a steering angle: what automatic referencing takes off the counter (R13). -/
theorem roundDiv_ten_bound {x : Int} (h : -460800 ≤ x ∧ x ≤ 460800) :
    -46080 ≤ roundDiv x 10 ∧ roundDiv x 10 ≤ 46080 := by
  unfold roundDiv
  split <;> omega

/-- Automatic referencing keeps the pin in range: the reference lies within 46080 counts of the counter (R13). -/
theorem autoReference_pins {p : VehicleParams} {angle : Option Int} {v : Vsb} (h : PinsOk v)
    (counts : CountsPerDegreeOk p) (inRange : ∀ a ∈ angle, -7200 ≤ a ∧ a ≤ 7200) : PinsOk (autoReference p angle v) := by
  unfold autoReference
  split
  case h_1 => exact h
  case h_2 a =>
    split
    case isFalse => exact h
    case isTrue =>
      obtain ⟨counter, _, _, _, speed⟩ := h
      have offset : -46080 ≤ roundDiv (a * p.countsPerDegree) 10 ∧ roundDiv (a * p.countsPerDegree) 10 ≤ 46080 := by
        obtain ⟨low, high⟩ := inRange a rfl
        obtain ⟨_, few⟩ := counts
        have cpd : (p.countsPerDegree : Int) ≤ 64 := by exact_mod_cast few
        exact roundDiv_ten_bound ⟨by nlinarith, by nlinarith⟩
      refine ⟨counter, ?_, pinAngleOf_range .., Nat.zero_le 8, speed⟩
      change -78848 ≤ v.pin.counter - roundDiv _ 10 ∧ v.pin.counter - roundDiv _ 10 ≤ 78847
      omega

/-- A frame taken keeps the pins in range (R2, R13). -/
theorem takeVehicleFrame_pins {s : State} (pins : PinsOk s.vsb) (counts : CountsOk s) :
    PinsOk (takeVehicleFrame s).vsb := by
  unfold takeVehicleFrame
  split
  case h_1 => exact pins
  case h_2 f rest _ =>
    dsimp only
    split
    case h_1 => exact pins
    case h_2 vf parsed =>
      obtain ⟨⟨_, _, steer, _⟩, _⟩ := (parseVehicle_eq_some_iff f.payload vf).mp parsed
      have taken : PinsOk (autoReference s.mu.tables.vehicle vf.steer
          (updateInputs s.now s.mu.tables.vehicle vf s.vsb)) := autoReference_pins pins counts.1 steer
      unfold applyVehicleFrame
      dsimp only
      rw [vehicleChanged_whole]
      split
      · rw [(trigger_keeps _).2.2.2.2.1]
        exact taken
      · exact taken

/-- An event of VSB keeps the pins in range. -/
theorem VehicleEvent.keeps_pins {s t : State} (pins : PinsOk s.vsb) (counts : CountsOk s) (e : VehicleEvent s t) :
    PinsOk t.vsb := by
  obtain ⟨counter, reference, angle, errors, speed⟩ := id pins
  cases e
  case frame => exact takeVehicleFrame_pins pins counts
  case staleness field =>
    cases field
    case speed =>
      change PinsOk (speedChanged _).vsb
      rw [speedChanged_whole]
      exact pins
    case steering =>
      change PinsOk (steerChanged _).vsb
      rw [steerChanged_whole]
      exact pins
    case request =>
      change PinsOk (trigger (reportStale _)).vsb
      rw [reportStale_eq, (trigger_keeps _).2.2.2.2.1]
      exact pins
    all_goals exact pins
  case edge =>
    unfold takeEdge
    split
    · exact pins
    · split
      · exact pins
      · rw [captureEdge_eq]
        split <;> exact ⟨counter, reference, angle, errors, pinSpeedOf_le ..⟩
  case speedTimeout =>
    rw [expireSpeedTimeout_eq]
    exact ⟨counter, reference, angle, errors, Nat.zero_le _⟩
  case step line =>
    have flipped : PinsOk (flipLine line s).vsb := by rwa [flipLine_vsb]
    by_cases inside : -32768 ≤ sampledCounter line s ∧ sampledCounter line s ≤ 32767
    · rw [stepCounter_inside inside]
      exact flipped.stepped _ inside flipped.2.2.2.2
    · rw [stepCounter_beyond inside]
      exact flipped
  case phaseError =>
    unfold countPhaseError
    dsimp only
    rw [steerChanged_whole]
    split <;> exact ⟨counter, reference, angle, Nat.min_le_left .., speed⟩
  case parameters =>
    unfold takeVehicleParameters
    rw [vehicleChanged_whole]
    have again : (recomputePins s.mu.tables.vehicle s.vsb).pinSpeed ≤ 2000 := by
      unfold recomputePins
      dsimp only
      split
      · exact speed
      · exact pinSpeedOf_le ..
    exact pins.stepped _ counter again

/-- A reset keeps the pins in range: the pin it leaves is worked out again (R21, R177). -/
theorem vsbReset_pins {p : VehicleParams} {pin : SteerPin} (counter : -32768 ≤ pin.counter ∧ pin.counter ≤ 32767)
    (reference : -78848 ≤ pin.reference ∧ pin.reference ≤ 78847) (angle : -7200 ≤ pin.angle ∧ pin.angle ≤ 7200)
    (errors : pin.phaseErrors ≤ 8) : PinsOk (vsbReset p pin) := by
  unfold vsbReset
  dsimp only
  cases pin.referenced
  · exact ⟨counter, reference, angle, errors, Nat.zero_le _⟩
  · exact ⟨counter, reference, pinAngleOf_range .., errors, Nat.zero_le _⟩

/-- Every event keeps the pins in range. -/
theorem Event.keeps_pins {s t : State} (pins : PinsOk s.vsb) (counts : CountsOk s) (e : Event s t) : PinsOk t.vsb := by
  cases e
  case unmoved | linesMove | resetAsserted => exact pins
  case reset => exact vsbReset_pins (pin := steerPinReset) (by decide) (by decide) (by decide) (by decide)
  case restart =>
    obtain ⟨counter, reference, angle, errors, _⟩ := pins
    exact vsbReset_pins counter reference angle errors
  case vehicle e => exact e.keeps_pins pins counts
  case scene e => obtain ⟨vsb, _⟩ := e.keeps; exact vsb ▸ pins
  case track e => obtain ⟨vsb, _⟩ := e.keeps; exact vsb ▸ pins
  case build e => obtain ⟨vsb, _⟩ := e.keeps; exact vsb ▸ pins
  case delivery e => obtain ⟨vsb, _⟩ := e.keeps; exact vsb ▸ pins
  case link e => obtain ⟨vsb, _⟩ := e.keeps; exact vsb ▸ pins
  case condition e => obtain ⟨vsb, _⟩ := e.keeps; exact vsb ▸ pins
  case port e => obtain ⟨vsb, _⟩ := e.keeps; exact vsb ▸ pins
  case request u f rest takes effect _ _ _ =>
    have carried : PinsOk u.vsb := by
      rcases effect.keeps_vsb with ⟨stats, vsb⟩ | rfl
      · rw [vsb]
        exact pins
      · obtain ⟨counter, _, _, _, speed⟩ := pins
        unfold steerZero
        rw [steerChanged_whole]
        have zero : -78848 ≤ s.vsb.pin.counter ∧ s.vsb.pin.counter ≤ 78847 := by
          have low : -32768 ≤ s.vsb.pin.counter := counter.1
          have high : s.vsb.pin.counter ≤ 32767 := counter.2
          omega
        exact ⟨counter, zero, pinAngleOf_range .., Nat.zero_le _, speed⟩
    exact carried

/-- Settles O18: record fields and pins are sound after every event. -/
theorem vehicleRecordAndPinsStaySound : Obligations.VehicleRecordAndPinsStaySound := by
  refine ⟨step_keeps (fun _ _ h => h) (fun _ _ h => h) fun _ _ h e => e.keeps_record h,
    step_keeps (fun _ _ h => h) (fun _ _ h => h) fun s t h e => ?_⟩
  obtain ⟨pins, counts⟩ := (pinsSound_iff s).mp h
  exact (pinsSound_iff t).mpr ⟨e.keeps_pins pins counts, e.keeps_counts counts⟩

end Sys2Proof.Machine

/-! The links' transmitters stay awake: whatever an event does to a link, a transmitter it leaves IDLE is one that no
member requests (R115). -/

namespace Sys2Proof.Machine

/-! ## One link -/

/-- The transmitter is IDLE only while no member requests it. -/
def SlcAwake (c : Slc) : Prop := c.tx = .idle → anyRequest c = false

/-- Nothing requests just where every queue and the Poll group are empty. -/
theorem anyRequest_eq_false_iff (c : Slc) :
    anyRequest c = false ↔ c.patternQ = [] ∧ c.passQ = [] ∧ anyPoll c.poll = false := by
  simp [anyRequest, requests, and_assoc]

/-- A transmitter that has looked for requests is awake. -/
theorem wakeSlc_awake (c : Slc) : SlcAwake (wakeSlc c) := by
  unfold wakeSlc
  split
  case isTrue => exact fun idle => nomatch idle
  case isFalse asleep =>
    intro idle
    simp only [Bool.and_eq_true, decide_eq_true_eq, not_and, Bool.not_eq_true] at asleep
    exact asleep idle

/-- A transmitter stays awake where requests go and none comes. -/
theorem SlcAwake.fewer {c d : Slc} (h : SlcAwake c) (tx : d.tx = c.tx) (pattern : c.patternQ = [] → d.patternQ = [])
    (pass : c.passQ = [] → d.passQ = []) (poll : anyPoll c.poll = false → anyPoll d.poll = false) : SlcAwake d := by
  intro idle
  have none := (anyRequest_eq_false_iff c).mp (h (tx ▸ idle))
  obtain ⟨noPattern, noPass, noPoll⟩ := none
  exact (anyRequest_eq_false_iff d).mpr ⟨pattern noPattern, pass noPass, poll noPoll⟩

/-- A Poll group whose every filled entry was filled before has no request more. -/
theorem anyPoll_fewer {a b : Row 4 (Option PollKind)} (fewer : ∀ k, a.get k = none → b.get k = none)
    (none : anyPoll a = false) : anyPoll b = false := by
  rw [anyPoll, List.any_eq_false] at none ⊢
  intro k hk
  have empty : a.get k = Option.none := by simpa using none k hk
  simp [fewer k empty]

/-- Every slot is searched for the Poll group's choice (R117). -/
theorem mem_servingOrder : ∀ last k : Slot, k ∈ servingOrder last := by decide

/-- A requesting member has a head frame (R115, R117). -/
theorem takeHead_isSome {windows : Row 4 ModuleEntry} {m : Member} {c : Slc} (h : requests c m = true) :
    ∃ f c', takeHead windows m c = some (f, c') := by
  cases m
  case pattern =>
    cases queue : c.patternQ
    case nil => simp [requests, queue] at h
    case cons f rest => exact ⟨_, _, by rw [takeHead, queue]⟩
  case pass =>
    cases queue : c.passQ
    case nil => simp [requests, queue] at h
    case cons f rest => exact ⟨_, _, by rw [takeHead, queue]⟩
  case pollGroup =>
    obtain ⟨k, filled⟩ := (anyPoll_iff c.poll).mp h
    cases choice : pollChoice c
    case none =>
      rw [pollChoice, List.findSome?_eq_none_iff] at choice
      exact absurd (Option.map_eq_none_iff.mp (choice k (mem_servingOrder c.lastServed k))) filled
    case some x => exact ⟨_, _, by rw [takeHead, choice]; rfl⟩

/-- The rotation asks every member (R116). -/
theorem mem_rotation : ∀ last m : Member, m ∈ [memberAfter last, memberAfter (memberAfter last), last] := by
  intro last m
  cases last <;> cases m <;> decide

/-- The rotation finds no member just where none requests (R116). -/
theorem rotationChoice_none {c : Slc} (h : rotationChoice c = none) : anyRequest c = false := by
  have quiet (m : Member) : requests c m = false :=
    Bool.eq_false_iff.mpr (List.find?_eq_none.mp h m (mem_rotation c.lastGranted m))
  simp [anyRequest, quiet]

/-- A member the rotation chooses requests (R116). -/
theorem rotationChoice_requests {c : Slc} {m : Member} (h : rotationChoice c = some m) : requests c m = true :=
  List.find?_some h

/-- A transmitter granted to a requesting member, or parked with none requesting, is awake (R115, R118). -/
theorem sendOrPark_awake {p : LinkParams} {windows : Row 4 ModuleEntry} {choice : Option Member} {c : Slc}
    (quiet : choice = none → anyRequest c = false) (granted : ∀ m, choice = some m → requests c m = true) :
    SlcAwake (sendOrPark p windows choice c) := by
  unfold sendOrPark
  cases chosen : choice
  case none => exact fun _ => quiet chosen
  case some m =>
    obtain ⟨f, c', head⟩ := takeHead_isSome (windows := windows) (granted m chosen)
    rw [Option.bind_some, head]
    exact fun idle => nomatch idle

/-- The grant at the end of a transmission leaves the transmitter awake (R115, R116). -/
theorem nextGrant_awake (p : LinkParams) (windows : Row 4 ModuleEntry) (c : Slc) :
    SlcAwake (nextGrant p windows c) := by
  refine sendOrPark_awake (fun none => ?_) fun m chosen => ?_
  · unfold grant at none
    split at none
    · cases none
    · exact rotationChoice_none none
  · unfold grant at chosen
    split at chosen
    case isTrue insists =>
      obtain ⟨_, patternRequests⟩ := (Bool.and_eq_true _ _).mp insists
      exact Option.some.inj chosen ▸ patternRequests
    case isFalse => exact rotationChoice_requests chosen

/-- The grant at the end of a wake sequence leaves the transmitter awake (R115, R118). -/
theorem wakeGrant_awake (p : LinkParams) (windows : Row 4 ModuleEntry) (c : Slc) :
    SlcAwake (wakeGrant p windows c) :=
  sendOrPark_awake rotationChoice_none fun _ => rotationChoice_requests

/-! ## Both links -/

/-- Both transmitters are awake. -/
def Awake (s : State) : Prop := ∀ l, SlcAwake (s.links.get l)

/-- They are awake unless RESETN holds the part: what the statement asks of a state. -/
theorem linksAwake_iff (s : State) : LinksAwake s ↔ s.inReset = true ∨ Awake s := Iff.rfl

section Operations

variable {s : State}

/-- A change of one link that leaves it awake. -/
theorem Awake.updLink (h : Awake s) {l : Link} {f : Slc → Slc} (awake : SlcAwake (f (s.links.get l))) :
    Awake (updLink l f s) := by
  intro m
  by_cases same : m = l
  · rw [updLink_links, same, Both.get_set_same]
    exact awake
  · rw [updLink_links, Both.get_set_other _ _ same]
    exact h m

/-- Nothing but reports changed, and so nothing about the transmitters. -/
theorem Awake.ofSent {t : State} (h : Awake s)
    (links : ∀ m, ∃ sent, t.links.get m = { s.links.get m with sent := sent }) : Awake t := by
  intro m
  obtain ⟨sent, same⟩ := links m
  rw [same]
  exact h m

/-- The same links. -/
theorem Awake.congr {t : State} (h : Awake s) (links : t.links = s.links) : Awake t := by
  intro m
  rw [links]
  exact h m

/-- A link that reports (R112). -/
theorem Awake.reportLink (h : Awake s) (l : Link) : Awake (reportLink l s) := by
  refine h.ofSent fun m => ?_
  rw [reportLink_eq]
  by_cases same : m = l
  · subst same
    exact ⟨_, Both.get_set_same ..⟩
  · exact ⟨(s.links.get m).sent, Both.get_set_other _ _ same⟩

/-- A build trigger (R61). -/
theorem Awake.trigger (h : Awake s) : Awake (trigger s) := by
  refine h.ofSent fun m => ?_
  have only := trigger_onlyBuild s
  unfold OnlyBuild at only
  rw [only]
  cases m <;> exact ⟨_, rfl⟩

/-- The start of a build (R64). -/
theorem Awake.buildStart (h : Awake s) : Awake (buildStart s) := by
  refine h.ofSent fun m => ?_
  have only := buildStart_onlyBuild s
  unfold OnlyBuild at only
  rw [only]
  cases m <;> exact ⟨_, rfl⟩

/-- A Module record changed. -/
theorem Awake.updModule (h : Awake s) (l : Link) (k : Slot) (f : ModuleRec → ModuleRec) :
    Awake (updModule l k f s) :=
  Awake.updLink h (h l)

/-- A count. -/
theorem Awake.countLink (h : Awake s) (l : Link) (i : Fin 13) : Awake (countLink l i s) :=
  Awake.updLink h (h l)

/-- A transmitter that looks for requests, whatever changed on its link. -/
theorem Awake.wake {l : Link} (h : ∀ m, m ≠ l → SlcAwake (s.links.get m)) : Awake (wake l s) := by
  intro m
  by_cases same : m = l
  · rw [wake_links, same, Both.get_set_same]
    exact wakeSlc_awake _
  · rw [wake_links, Both.get_set_other _ _ same]
    exact h m same

/-- A change of one link after which it looks for requests. -/
theorem Awake.wake_updLink (h : Awake s) (l : Link) (f : Slc → Slc) : Awake (Machine.wake l (Machine.updLink l f s)) :=
  Awake.wake fun m other => by
    rw [updLink_links, Both.get_set_other _ _ other]
    exact h m

/-- The next grant (R115). -/
theorem Awake.grantNext (h : Awake s) (l : Link) : Awake (grantNext l s) :=
  Awake.updLink h (nextGrant_awake _ _ _)

/-- Entering JOINING (R105). -/
theorem Awake.enterJoining (h : Awake s) (l : Link) (k : Slot) : Awake (enterJoining l k s) := by
  unfold Machine.enterJoining
  dsimp only
  split
  · exact Awake.reportLink (h.wake_updLink l _) l
  · exact h.wake_updLink l _

/-- What isolation takes from a BROKEN module (R109). -/
theorem Awake.silence (h : Awake s) (l : Link) (k : Slot) : Awake (Machine.updLink l (silence k) s) := by
  refine Awake.updLink h ((h l).fewer rfl (fun none => ?_) (fun none => none) ?_)
  · simp [Machine.silence, none]
  · refine anyPoll_fewer fun j none => ?_
    by_cases same : j = k <;> simp [Machine.silence, same, none]

/-- A transmission cut short (R109). -/
theorem Awake.cutShort (h : Awake s) (l : Link) (k : Slot) : Awake (cutShort l k s) := by
  unfold Machine.cutShort
  split
  · split
    · refine Awake.grantNext (Awake.updLink h ?_) l
      unfold countCut
      dsimp only
      split <;> exact h l
    · exact h
  all_goals exact h

/-- A module broken (R109). -/
theorem Awake.becomeBroken (h : Awake s) (l : Link) (k : Slot) : Awake (becomeBroken l k s) := by
  unfold Machine.becomeBroken
  dsimp only
  refine Awake.reportLink ?_ l
  have counted : Awake { Machine.countLink l Stat.lnkBreaks (Machine.updModule l k
      (fun m => { m with state := .broken }) s) with
      mail := { s.mail with broken := s.mail.broken ++ [(l, k)] } } := by
    have broken := (h.updModule l k fun m => { m with state := .broken }).countLink l Stat.lnkBreaks
    exact broken
  split
  · exact Awake.cutShort (Awake.silence counted l k) l k
  · exact counted

/-- A miss, with the break it may bring (R108). -/
theorem Awake.miss (h : Awake s) (l : Link) (k : Slot) : Awake (miss l k s) := by
  have counted := (h.updModule l k fun m => { m with misses := min 15 (m.misses + 1) }).countLink l Stat.lnkMisses
  unfold Machine.miss
  dsimp only
  split
  · exact counted.becomeBroken l k
  · exact counted

/-- A link set up again (R103). -/
theorem Awake.setUpLink (h : Awake s) (l : Link) : Awake (setUpLink l s) := by
  unfold Machine.setUpLink
  dsimp only
  have woken (f : Slc → Slc) (raws : LinkRaws) : Awake (Machine.updLink l (fun c => { c with sent := raws })
      (Machine.wake l (Machine.updLink l f s))) :=
    Awake.updLink (h.wake_updLink l f) ((h.wake_updLink l f) l)
  exact (woken _ _).congr rfl

/-- Slots treated as ABSENT (R101). -/
theorem Awake.treatAbsent (h : Awake s) (l : Link) : Awake (treatAbsent l s) := by
  unfold Machine.treatAbsent
  dsimp only
  split
  · refine Awake.reportLink (Awake.updLink h ((h l).fewer rfl (fun none => none) (fun none => none) ?_)) l
    refine anyPoll_fewer fun k none => ?_
    simp [none]
  · exact h

/-- A frame offered to a Pass queue (R114). -/
theorem Awake.offerPass (h : Awake s) (l : Link) (f : PassFrame) : Awake (offerPass l f s) := by
  unfold Machine.offerPass
  split
  · exact h.wake_updLink l _
  · exact h.countLink l _

/-- Frames placed in a Pattern queue (R113). -/
theorem Awake.placePattern (h : Awake s) (l : Link) (fs : List PatternFrame) : Awake (placePattern l fs s) :=
  h.wake_updLink l _

/-- Blocks placed (R124). -/
theorem Awake.placeBlocks (h : Awake s) (l : Link) (fs : List PatternFrame) : Awake (placeBlocks l fs s) := by
  unfold Machine.placeBlocks
  split
  · exact h
  · exact h.placePattern l fs

/-- A delivery started (R124). -/
theorem Awake.startDelivery (h : Awake s) (g : GenRecord) : Awake (startDelivery g s) := by
  unfold Machine.startDelivery
  dsimp only
  split
  · exact h.congr (by simp)
  · exact Awake.placeBlocks (Awake.placeBlocks (h.congr (by simp)) _ _) _ _

/-- A delivery ended (R123). -/
theorem Awake.endDelivery (h : Awake s) : Awake (endDelivery s) := by
  unfold Machine.endDelivery
  dsimp only
  split
  · exact h
  · refine Awake.startDelivery ?_ _
    exact h

/-- A member left the ack set, with the APPLY it may bring (R126 to R128). -/
theorem Awake.leaveAckSet (h : Awake s) (g : GenRecord) (l : Link) (k : Slot) : Awake (leaveAckSet g l k s) := by
  unfold Machine.leaveAckSet
  dsimp only
  split
  · refine Awake.placePattern (Awake.placePattern ?_ _ _) _ _
    exact h
  · exact h

/-- The blocks of a generation removed (R130). -/
theorem Awake.dropBlocks (h : Awake s) (gen : Byte) (l : Link) : Awake (dropBlocks gen l s) :=
  Awake.updLink h ((h l).fewer rfl (fun none => by simp [none]) (fun none => none) fun none => none)

/-- A generation abandoned (R130). -/
theorem Awake.abandon (h : Awake s) (g : GenRecord) : Awake (abandon g s) := by
  unfold Machine.abandon
  dsimp only
  refine Awake.endDelivery ?_
  have charged : Awake (s.du.ackSet.foldl (fun s m => chargeMiss m.1 m.2 s) s) := by
    refine List.foldlRecOn (motive := Awake) _ _ h fun u ok m _ => ?_
    unfold chargeMiss
    split
    · exact ok
    · exact ok.miss m.1 m.2
  exact (charged.dropBlocks g.number .left).dropBlocks g.number .right

/-- A STATUS taken (R107). -/
theorem Awake.takeStatus (h : Awake s) (l : Link) (k : Slot) (band : Nat) (selfFallback : Bool) (failed : List Nat) :
    Awake (takeStatus l k band selfFallback failed s) := by
  unfold Machine.takeStatus
  dsimp only
  refine Awake.reportLink ?_ l
  have taken := (h.updModule l k (recordAfterStatus s.mu.isolation band selfFallback failed)).countLink l
    Stat.lnkStatusTaken
  have joined (b : Bool) : Awake (if b then Machine.countLink l Stat.lnkJoins (Machine.countLink l Stat.lnkStatusTaken
      (Machine.updModule l k (recordAfterStatus s.mu.isolation band selfFallback failed) s))
    else Machine.countLink l Stat.lnkStatusTaken
      (Machine.updModule l k (recordAfterStatus s.mu.isolation band selfFallback failed) s)) := by
    cases b
    · exact taken
    · exact taken.countLink l _
  split
  · exact Awake.trigger (joined _)
  · exact joined _

/-- A frame from a link (R104). -/
theorem Awake.receiveLink (h : Awake s) (l : Link) (bytes : List Byte) : Awake (receiveLink l bytes s) := by
  unfold Machine.receiveLink
  split
  case h_1 | h_2 => exact h.countLink l _
  case h_3 f _ =>
    split
    case isTrue => exact h.countLink l _
    case isFalse =>
      have heard := (h.updModule l (frameSlot f) fun m => { m with misses := 0 }).countLink l Stat.lnkRxFrames
      cases f
      case status => exact heard.takeStatus l _ _ _ _
      case blockAck => exact heard
      case passUp => exact (heard.countLink l Stat.lnkPassUp).congr (by simp [takeModuleFrame])

/-- What a completed transmission brings about (R106, R113, R114, R129). -/
theorem Awake.frameSent (h : Awake s) (l : Link) (f : LinkFrame) : Awake (frameSent l f s) := by
  have replies (k : Slot) (kind : PollKind) : Awake (startReplyTimer l k kind s) := by
    unfold startReplyTimer
    split
    · exact h
    · exact h.updModule l k _
  unfold Machine.frameSent
  split
  case h_1 | h_3 => exact h.countLink l _
  case h_2 =>
    unfold applyTransmitted
    dsimp only
    split
    · split
      · refine Awake.endDelivery ?_
        exact h
      · exact h
    all_goals exact h
  case h_4 => exact replies _ _
  case h_5 => exact replies _ _

end Operations

/-! ## Events -/

/-- Build triggers alone keep the links awake. -/
theorem Awake.ofTriggers {s t : State} (h : Awake s) (triggers : Triggers SameCore s t) : Awake t :=
  triggers.keeps (fun _ _ same ok => ok.congr same.links) (fun _ ok => ok.trigger) h

/-- An event of PB. -/
theorem BuildEvent.keeps_awake {s t : State} (h : Awake s) (e : BuildEvent s t) : Awake t := by
  cases e
  case refresh => exact Awake.trigger h
  case completion =>
    unfold completeBuild
    dsimp only
    split
    · refine Awake.buildStart ?_
      exact h
    · exact h

/-- An event of DU. -/
theorem DeliveryEvent.keeps_awake {s t : State} (h : Awake s) (e : DeliveryEvent s t) : Awake t := by
  cases e
  case record =>
    unfold takeRecord
    split
    · refine Awake.startDelivery ?_ _
      exact h
    all_goals exact h
  case ack =>
    unfold takeAck
    split
    · exact h
    · split
      · exact h
      · split
        · refine Awake.leaveAckSet ?_ _ _ _
          exact h
        · exact h
  case broken =>
    unfold takeBroken
    split
    · split
      · refine Awake.leaveAckSet ?_ _ _ _
        exact h
      · exact h
    all_goals exact h
  case timeout =>
    unfold expireApply
    split
    · exact h.abandon _
    · exact h

/-- An event of a link. -/
theorem LinkEvent.keeps_awake {l : Link} {s t : State} (h : Awake s) (e : LinkEvent l s t) : Awake t := by
  cases e
  case frame bytes => exact h.receiveLink l bytes
  case replyTimeout k =>
    unfold expireReply
    dsimp only
    have stopped := (h.updModule l k fun m => { m with outstanding := none }).countLink l Stat.lnkReplyTimeouts
    split
    · exact stopped
    · exact stopped.miss l k
  case poll => exact h.wake_updLink l _
  case wakeEnd => exact Awake.updLink h (wakeGrant_awake _ _ _)
  case sent f _ _ => exact (h.frameSent l f).grantNext l

/-- An event of UP. -/
theorem PortEvent.keeps_awake {s t : State} (h : Awake s) (e : PortEvent s t) : Awake t := by
  cases e
  case frame bytes _ =>
    have scored (n : Nat) (i : Fin 19) : Awake (setScore n (countPort i s)) :=
      Awake.ofTriggers (s := countPort i s) h Triggers.none.after_setScore
    unfold receiveUpstream
    split
    case h_4 f _ =>
      have good := scored (s.up.score - 1) Stat.upRxGood
      unfold receiveGood sortFrame
      split
      · exact good.congr (by simp)
      · split
        case h_1 a _ =>
          cases a
          case passLeft => exact Awake.offerPass (s := countPort _ _) good _ _
          case passRight => exact Awake.offerPass (s := countPort _ _) good _ _
          case passBoth => exact Awake.offerPass (Awake.offerPass (s := countPort _ _) good _ _) _ _
          all_goals exact good.congr (by simp [placeByAction])
        case h_2 => exact good
    all_goals exact scored _ _
  case recovery => exact h.congr (by simp [recoverPort])
  case sent => exact h

/-- A request carried out. -/
theorem CommandEffect.keeps_awake {s t : State} (h : Awake s) (e : CommandEffect s t) : Awake t := by
  cases e
  case loadLive id first entries u _ _ =>
    have lives (v : State) (ok : Awake v) : Awake (tableLives id s.mu.tables v) := by
      cases id
      case build | segMap => exact (ok.reportLink .left).reportLink .right
      all_goals exact ok
    have written := lives { s with mu := { s.mu with tables := u } } h
    cases id
    case modules => exact (Awake.treatAbsent written .left).treatAbsent .right
    all_goals exact written
  case commit => exact Awake.trigger (s := countManagement _ _) h
  case enterConfig =>
    refine Awake.trigger ?_
    exact h
  case exitConfig =>
    refine Awake.trigger (Awake.setUpLink (Awake.setUpLink ?_ .left) .right)
    exact h
  case setHold value =>
    unfold setHoldLow
    split
    · exact h
    · refine Awake.trigger ?_
      exact h
  case setIsolation on =>
    have rejoined (l : Link) (u : State) (ok : Awake u) : Awake (allSlots.foldl (rejoinBroken l) u) := by
      refine List.foldlRecOn (motive := Awake) _ _ ok fun v ok k _ => ?_
      unfold rejoinBroken
      split
      · exact ok.enterJoining l k
      · exact ok
    exact rejoined .right _ (rejoined .left _ h)
  case clearStatistics g first count =>
    cases g
    case linkLeft =>
      exact Awake.updLink (l := .left) (f := fun c => { c with stats := clearCells first count c.stats }) h (h .left)
    case linkRight =>
      exact Awake.updLink (l := .right) (f := fun c => { c with stats := clearCells first count c.stats }) h (h .right)
    all_goals exact h
  case clearNotice numbers =>
    unfold clearNotices
    dsimp only
    split <;> exact h
  case recoverCondition => exact h.ofTriggers Triggers.none.after_settle
  case recoverModule l k _ => exact h.enterJoining l k
  case steerZero => exact h.congr (by simp)
  all_goals exact h

/-- After a reset the transmitters are awake: they wake for their JOINs (R122). -/
theorem linksReset_awake (t : Tables) (l : Link) : SlcAwake ((linksReset t).get l) := by
  have slc : SlcAwake (slcReset t l) := by
    intro idle
    have quiet : anyPoll (slcReset t l).poll = false := by
      cases filled : anyPoll (slcReset t l).poll
      case false => rfl
      case true =>
        have waking : (slcReset t l).tx = .waking := if_pos filled
        exact nomatch waking.symm.trans idle
    exact (anyRequest_eq_false_iff _).mpr ⟨rfl, rfl, quiet⟩
  cases l <;> exact slc

/-- Every event keeps the links awake. -/
theorem Event.keeps_awake {s t : State} (h : LinksAwake s) (e : Event s t) : LinksAwake t := by
  have ofAwake (awake : s.inReset = false) : Awake s :=
    ((linksAwake_iff s).mp h).resolve_left (by rw [awake]; exact Bool.false_ne_true)
  cases e
  case unmoved | linesMove => exact h
  case reset | restart => exact (linksAwake_iff _).mpr <| .inr (linksReset_awake _)
  case resetAsserted => exact .inl rfl
  case vehicle awake e => exact (linksAwake_iff _).mpr <| .inr ((ofAwake awake).ofTriggers e.triggers)
  case scene awake e => exact (linksAwake_iff _).mpr <| .inr ((ofAwake awake).ofTriggers e.triggers)
  case track awake e => exact (linksAwake_iff _).mpr <| .inr ((ofAwake awake).ofTriggers e.triggers)
  case build awake e => exact (linksAwake_iff _).mpr <| .inr (e.keeps_awake (ofAwake awake))
  case delivery awake e => exact (linksAwake_iff _).mpr <| .inr (e.keeps_awake (ofAwake awake))
  case link awake e => exact (linksAwake_iff _).mpr <| .inr (e.keeps_awake (ofAwake awake))
  case condition awake e => exact (linksAwake_iff _).mpr <| .inr ((ofAwake awake).ofTriggers e.triggers)
  case port awake e => exact (linksAwake_iff _).mpr <| .inr (e.keeps_awake (ofAwake awake))
  case request u f rest takes effect _ _ _ =>
    have carried : Awake u := effect.keeps_awake (s := afterTaking rest s) (ofAwake takes.1)
    exact (linksAwake_iff _).mpr <| .inr carried

end Sys2Proof.Machine

/-! The raw values of the links: what each link last sent CM stands at what its Module records give, after every event
(R112). -/

namespace Sys2Proof.Machine

/-! ## What the raw values say (R112, R101) -/

/-- The state every block reads of a record, as the statement writes it (R101). -/
theorem effState_eq (m : ModuleRec) : effState m = if m.treatedAbsent then .absent else m.state := rfl

/-- A record's index names a LOW segment of a window (R112). -/
theorem failsLowZone_iff (g : SegMapEntry) (e : ModuleEntry) (n : Nat) :
    failsLowZone g e n = true ↔ ∃ i, windowSegment e n = some i ∧ g.high.get i = false := by
  unfold failsLowZone
  cases windowSegment e n <;> simp

/-- Every slot is one of the four. -/
theorem mem_allSlots : ∀ k : Slot, k ∈ allSlots := by decide

/-- The four raw values of a link, each by what it says of some slot (R112). -/
theorem linkRaws_iff (t : Tables) (l : Link) (modules : Row 4 ModuleRec) :
    ((linkRaws t l modules).broken = true ↔ ∃ k, effState (modules.get k) = .broken)
      ∧ ((linkRaws t l modules).selfFallback = true
        ↔ ∃ k, effState (modules.get k) ≠ .absent ∧ (modules.get k).selfFallback = true)
      ∧ ((linkRaws t l modules).segFailed = true ↔ ∃ k n i, effState (modules.get k) ≠ .absent
          ∧ n ∈ (modules.get k).failed ∧ windowSegment ((t.modules.get l).get k) n = some i
          ∧ (t.segMap.get l).high.get i = false)
      ∧ ((linkRaws t l modules).overtemp = true
        ↔ ∃ k, effState (modules.get k) ≠ .absent ∧ t.build.overtempBand ≤ (modules.get k).band) := by
  have eqIff (a b : ModuleState) : (a == b) = true ↔ a = b := by cases a <;> cases b <;> decide
  have neIff (a b : ModuleState) : (a != b) = true ↔ a ≠ b := by cases a <;> cases b <;> decide
  simp only [linkRaws, List.any_eq_true, List.mem_filter, mem_allSlots, true_and, and_true, eqIff, neIff, failsLowZone_iff,
    decide_eq_true_eq]
  constructor
  · rintro ⟨k, live, n, failed, i, names, low⟩
    exact ⟨k, n, i, live, failed, names, low⟩
  · rintro ⟨k, n, i, live, failed, names, low⟩
    exact ⟨k, live, n, failed, i, names, low⟩

/-- What the raw values read of a record. -/
def SameView (m m' : ModuleRec) : Prop :=
  (effState m' != .absent) = (effState m != .absent) ∧ (effState m' == .broken) = (effState m == .broken)
    ∧ m'.selfFallback = m.selfFallback ∧ m'.failed = m.failed ∧ m'.band = m.band

/-- Records that read the same give the same raw values. -/
theorem linkRaws_congr {t : Tables} {l : Link} {a b : Row 4 ModuleRec} (same : ∀ k, SameView (a.get k) (b.get k)) :
    linkRaws t l b = linkRaws t l a := by
  unfold SameView at same
  simp only [forall_and] at same
  obtain ⟨live, broken, selfFallback, failed, band⟩ := same
  simp only [linkRaws, live, broken, selfFallback, failed, band]

/-! ## Links whose last report stands -/

/-- What this link last sent CM stands at its raw values; SEGMENT_FAILED unless in CONFIG. -/
def RawsFit (s : State) (l : Link) : Prop :=
  let raws := linkRaws s.mu.tables l (s.links.get l).modules
  let sent := (s.links.get l).sent
  sent.broken = raws.broken ∧ sent.selfFallback = raws.selfFallback ∧ sent.overtemp = raws.overtemp
    ∧ (s.mu.config = .run → sent.segFailed = raws.segFailed)

/-- It does for each of these links. -/
def Fits (p : Link → Prop) (s : State) : Prop := ∀ l, p l → RawsFit s l

/-- All links: what the statement asks of a state. -/
theorem linkRawsSound_iff (s : State) : LinkRawsSound s ↔ Fits (fun _ => True) s :=
  ⟨fun h l _ => h l, fun h l => h l trivial⟩

section Operations

variable {p : Link → Prop} {s t : State}

/-- A link that has sent what stands fits. -/
theorem rawsFit_of_sent {l : Link} (h : (s.links.get l).sent = linkRaws s.mu.tables l (s.links.get l).modules) :
    RawsFit s l := by
  unfold RawsFit
  rw [h]
  exact ⟨rfl, rfl, rfl, fun _ => rfl⟩

/-- A link fits as before where its raw values and what it sent are the same. -/
theorem RawsFit.congr {l : Link} (h : RawsFit s l)
    (raws : linkRaws t.mu.tables l (t.links.get l).modules = linkRaws s.mu.tables l (s.links.get l).modules)
    (sent : (t.links.get l).sent = (s.links.get l).sent) (config : t.mu.config = s.mu.config) : RawsFit t l := by
  unfold RawsFit
  rw [raws, sent, config]
  exact h

/-- The links fit as before where links and MU are the same. -/
theorem Fits.congr (h : Fits p s) (links : t.links = s.links) (tables : t.mu.tables = s.mu.tables)
    (config : t.mu.config = s.mu.config) : Fits p t :=
  fun l hl => (h l hl).congr (by rw [tables, links]) (by rw [links]) config

/-- Fewer links. -/
theorem Fits.mono {q : Link → Prop} (h : Fits p s) (fewer : ∀ l, q l → p l) : Fits q s := fun l hl => h l (fewer l hl)

/-- A change of one link that its raw values do not read. -/
theorem Fits.updLink (h : Fits p s) {l : Link} {f : Slc → Slc}
    (same : ∀ k, SameView ((s.links.get l).modules.get k) ((f (s.links.get l)).modules.get k))
    (sent : (f (s.links.get l)).sent = (s.links.get l).sent) : Fits p (updLink l f s) := by
  intro m hm
  by_cases here : m = l
  · subst here
    refine (h m hm).congr ?_ ?_ rfl
    · rw [updLink_links, Both.get_set_same]
      exact linkRaws_congr same
    · rw [updLink_links, Both.get_set_same, sent]
  · exact (h m hm).congr (by rw [updLink_links, Both.get_set_other _ _ here]; rfl)
      (by rw [updLink_links, Both.get_set_other _ _ here]) rfl

/-- Any change of one link leaves the others. -/
theorem Fits.updLink_but (h : Fits p s) (l : Link) (f : Slc → Slc) : Fits (fun m => p m ∧ m ≠ l) (Machine.updLink l f s) :=
  fun m ⟨hm, other⟩ => (h m hm).congr (by rw [updLink_links, Both.get_set_other _ _ other]; rfl)
    (by rw [updLink_links, Both.get_set_other _ _ other]) rfl

/-- A link that reports fits (R112). -/
theorem Fits.reportLink {l : Link} (h : Fits (fun m => p m ∧ m ≠ l) s) : Fits p (reportLink l s) := by
  intro m hm
  obtain ⟨modules, _⟩ := reportLink_links l s m
  by_cases here : m = l
  · subst here
    refine rawsFit_of_sent ?_
    rw [reportLink_sent, if_pos rfl, modules]
    simp
  · refine (h m ⟨hm, here⟩).congr (by rw [modules]; simp) ?_ (by simp)
    rw [reportLink_sent, if_neg here]

/-- Both links report (R112). -/
theorem reportLinks_fits (s : State) : Fits p (reportLinks s) := by
  refine Fits.reportLink (l := .right) (Fits.reportLink (l := .left) fun m hm => ?_)
  obtain ⟨⟨_, notRight⟩, notLeft⟩ := hm
  cases m
  · exact absurd rfl notLeft
  · exact absurd rfl notRight

/-- A table that comes into force is followed by reports where it concerns them (R112). -/
theorem Fits.tableLives (h : Fits p s) (id : TableId) (before : Tables) : Fits p (tableLives id before s) := by
  cases id
  case build | segMap => exact reportLinks_fits s
  all_goals exact h

/-- Tables that come into force together: the links fit if they did, or if the Build Parameters are among them. -/
theorem fits_foldl_tableLives (ids : List TableId) (before : Tables) (h : Fits p s ∨ .build ∈ ids) :
    Fits p (ids.foldl (fun s id => Machine.tableLives id before s) s) := by
  induction ids generalizing s with
  | nil => exact h.resolve_right List.not_mem_nil
  | cons id ids ih =>
    refine ih ?_
    rcases h with fits | among
    · exact .inl (fits.tableLives id before)
    · rcases List.mem_cons.mp among with rfl | later
      · exact .inl (reportLinks_fits s)
      · exact .inr later

/-- A build's start, which may take a commit (R64). -/
theorem Fits.buildStart (h : Fits p s) : Fits p (buildStart s) := by
  have taken : Fits p (takeCommit s) := by
    unfold takeCommit
    split
    case isFalse => exact h
    case isTrue =>
      refine fits_foldl_tableLives _ _ ?_
      cases staged : s.mu.staged.build
      case none =>
        refine .inl fun l hl => (h l hl).congr ?_ rfl rfl
        simp [linkRaws, overlay, staged]
      case some =>
        exact .inr (List.mem_filter.mpr ⟨by decide, by simp [isStaged, staged]⟩)
  exact taken

/-- A build trigger (R61). -/
theorem Fits.trigger (h : Fits p s) : Fits p (trigger s) := by
  unfold Machine.trigger
  split
  · exact h.buildStart
  · exact h

/-- Build triggers alone. -/
theorem Fits.ofTriggers (h : Fits p s) (triggers : Triggers SameCore s t) : Fits p t :=
  triggers.keeps (fun _ _ same ok => ok.congr same.links (by rw [same.mu]) (by rw [same.mu])) (fun _ ok => ok.trigger) h

/-- A count. -/
theorem Fits.countLink (h : Fits p s) (l : Link) (i : Fin 13) : Fits p (countLink l i s) :=
  Fits.updLink h (fun _ => ⟨rfl, rfl, rfl, rfl, rfl⟩) rfl

/-- A transmitter that looks for requests. -/
theorem Fits.wake (h : Fits p s) (l : Link) : Fits p (wake l s) := by
  refine Fits.updLink h (fun k => ?_) ?_
  · rw [(wakeSlc_keeps _).1]
    exact ⟨rfl, rfl, rfl, rfl, rfl⟩
  · unfold wakeSlc
    split <;> rfl

/-- A Module record changed in what the raw values do not read. -/
theorem Fits.updModule (h : Fits p s) {l : Link} {k : Slot} {f : ModuleRec → ModuleRec}
    (same : SameView (moduleRec s l k) (f (moduleRec s l k))) : Fits p (updModule l k f s) := by
  refine Fits.updLink h (fun j => ?_) rfl
  by_cases here : j = k
  · subst here
    rw [Row.get_modify_same]
    exact same
  · rw [Row.get_modify_other _ _ here]
    exact ⟨rfl, rfl, rfl, rfl, rfl⟩

/-- The next grant (R115). -/
theorem Fits.grantNext (h : Fits p s) (l : Link) : Fits p (grantNext l s) := by
  obtain ⟨modules, sent⟩ := sendOrPark_keeps s.mu.tables.link (s.mu.tables.modules.get l)
    (grant s.mu.tables.link (s.links.get l)) (s.links.get l)
  refine Fits.updLink h (fun k => ?_) sent
  rw [show (nextGrant s.mu.tables.link (s.mu.tables.modules.get l) (s.links.get l)).modules = _ from modules]
  exact ⟨rfl, rfl, rfl, rfl, rfl⟩

/-- A module broken: the link reports (R109). -/
theorem Fits.becomeBroken (h : Fits p s) (l : Link) (k : Slot) : Fits p (becomeBroken l k s) := by
  unfold Machine.becomeBroken
  dsimp only
  refine Fits.reportLink ?_
  have others : Fits (fun m => p m ∧ m ≠ l) { Machine.countLink l Stat.lnkBreaks (Machine.updModule l k
      (fun m => { m with state := .broken }) s) with
      mail := { s.mail with broken := s.mail.broken ++ [(l, k)] } } := by
    have broken := (h.updLink_but l fun c =>
      { c with modules := c.modules.modify k fun m => { m with state := .broken } }).countLink l Stat.lnkBreaks
    exact broken
  split
  · have cut (u : State) (ok : Fits (fun m => p m ∧ m ≠ l) u) : Fits (fun m => p m ∧ m ≠ l) (cutShort l k u) := by
      unfold cutShort
      split
      · split
        · refine Fits.grantNext ?_ l
          exact (ok.updLink_but l _).mono fun m ⟨hm, other⟩ => ⟨⟨hm, other⟩, other⟩
        · exact ok
      all_goals exact ok
    exact cut _ ((others.updLink_but l _).mono fun m ⟨hm, other⟩ => ⟨⟨hm, other⟩, other⟩)
  · exact others

/-- A miss, with the break it may bring (R108). -/
theorem Fits.miss (h : Fits p s) (l : Link) (k : Slot) : Fits p (miss l k s) := by
  have counted : Fits p (Machine.countLink l Stat.lnkMisses
      (Machine.updModule l k (fun m => { m with misses := min 15 (m.misses + 1) }) s)) :=
    Fits.countLink (Fits.updModule h ⟨rfl, rfl, rfl, rfl, rfl⟩) l _
  unfold Machine.miss
  dsimp only
  split
  · exact counted.becomeBroken l k
  · exact counted

/-- A module that is not ABSENT enters JOINING: its link reports where it leaves BROKEN (R105, R112). -/
theorem Fits.enterJoining (h : Fits p s) {l : Link} {k : Slot} (present : effState (moduleRec s l k) ≠ .absent) :
    Fits p (enterJoining l k s) := by
  unfold Machine.enterJoining
  dsimp only
  split
  case isTrue =>
    exact Fits.reportLink (Fits.wake (h.updLink_but l _) l)
  case isFalse notBroken =>
    refine Fits.wake (Fits.updLink h (fun j => ?_) rfl) l
    by_cases here : j = k
    · subst here
      rw [joinSlot, Row.get_modify_same]
      unfold moduleRec at present notBroken
      generalize (s.links.get l).modules.get j = m at present notBroken
      have stays : m.treatedAbsent = false := by
        cases treated : m.treatedAbsent
        · rfl
        · exact absurd (by rw [effState_eq, treated, if_pos rfl]) present
      rw [effState_eq, stays] at present
      cases state : m.state
      case absent => exact absurd state present
      case broken => exact absurd state notBroken
      case joining => simp [SameView, effState_eq, stays, state]
      case active =>
        simp only [SameView, effState_eq, stays, state]
        decide
    · rw [joinSlot, Row.get_modify_other _ _ here]
      exact ⟨rfl, rfl, rfl, rfl, rfl⟩

/-- A link set up again sends its raw values (R103, R122). -/
theorem Fits.setUpLink {l : Link} (h : Fits (fun m => p m ∧ m ≠ l) s) : Fits p (setUpLink l s) := by
  intro m hm
  by_cases here : m = l
  · subst here
    refine rawsFit_of_sent ?_
    rw [setUpLink_eq, Both.get_set_same]
  · refine (h m ⟨hm, here⟩).congr ?_ ?_ (by simp)
    · rw [setUpLink_eq, Both.get_set_other _ _ here]
    · rw [setUpLink_eq, Both.get_set_other _ _ here]

/-- Slots treated as ABSENT: the link reports (R101). -/
theorem Fits.treatAbsent (h : Fits p s) (l : Link) : Fits p (treatAbsent l s) := by
  unfold Machine.treatAbsent
  dsimp only
  split
  · exact Fits.reportLink (h.updLink_but l _)
  · exact h

/-- A frame offered to a Pass queue (R114). -/
theorem Fits.offerPass (h : Fits p s) (l : Link) (f : PassFrame) : Fits p (offerPass l f s) := by
  unfold Machine.offerPass
  split
  · refine Fits.wake (Fits.updLink h (fun _ => ⟨rfl, rfl, rfl, rfl, rfl⟩) ?_) l
    rfl
  · exact h.countLink l _

/-- Frames placed in a Pattern queue (R113). -/
theorem Fits.placePattern (h : Fits p s) (l : Link) (fs : List PatternFrame) : Fits p (placePattern l fs s) := by
  refine Fits.wake (Fits.updLink h (fun _ => ⟨rfl, rfl, rfl, rfl, rfl⟩) ?_) l
  rfl

/-- Blocks placed (R124). -/
theorem Fits.placeBlocks (h : Fits p s) (l : Link) (fs : List PatternFrame) : Fits p (placeBlocks l fs s) := by
  unfold Machine.placeBlocks
  split
  · exact h
  · exact h.placePattern l fs

/-- A delivery started (R124). -/
theorem Fits.startDelivery (h : Fits p s) (g : GenRecord) : Fits p (startDelivery g s) := by
  unfold Machine.startDelivery
  dsimp only
  split
  · exact h.congr (by simp) (by simp) (by simp)
  · exact Fits.placeBlocks (Fits.placeBlocks (h.congr (by simp) (by simp) (by simp)) _ _) _ _

/-- A delivery ended (R123). -/
theorem Fits.endDelivery (h : Fits p s) : Fits p (endDelivery s) := by
  unfold Machine.endDelivery
  dsimp only
  split
  · exact h
  · refine Fits.startDelivery ?_ _
    exact h

/-- A member left the ack set, with the APPLY it may bring (R126 to R128). -/
theorem Fits.leaveAckSet (h : Fits p s) (g : GenRecord) (l : Link) (k : Slot) : Fits p (leaveAckSet g l k s) := by
  unfold Machine.leaveAckSet
  dsimp only
  split
  · refine Fits.placePattern (Fits.placePattern ?_ _ _) _ _
    exact h
  · exact h

/-- A generation abandoned (R130). -/
theorem Fits.abandon (h : Fits p s) (g : GenRecord) : Fits p (abandon g s) := by
  unfold Machine.abandon
  dsimp only
  refine Fits.endDelivery ?_
  have charged : Fits p (s.du.ackSet.foldl (fun s m => chargeMiss m.1 m.2 s) s) := by
    refine List.foldlRecOn (motive := Fits p) _ _ h fun u ok m _ => ?_
    unfold chargeMiss
    split
    · exact ok
    · exact ok.miss m.1 m.2
  have dropped (l : Link) (u : State) (ok : Fits p u) : Fits p (dropBlocks g.number l u) :=
    Fits.updLink ok (fun _ => ⟨rfl, rfl, rfl, rfl, rfl⟩) rfl
  exact dropped .right _ (dropped .left _ charged)

/-- A STATUS taken: the link reports (R107). -/
theorem Fits.takeStatus (h : Fits p s) (l : Link) (k : Slot) (band : Nat) (selfFallback : Bool) (failed : List Nat) :
    Fits p (takeStatus l k band selfFallback failed s) := by
  unfold Machine.takeStatus
  dsimp only
  refine Fits.reportLink ?_
  have taken := (h.updLink_but l fun c => { c with
    modules := c.modules.modify k (recordAfterStatus s.mu.isolation band selfFallback failed) }).countLink l
    Stat.lnkStatusTaken
  have joined (b : Bool) : Fits (fun m => p m ∧ m ≠ l) (if b
    then Machine.countLink l Stat.lnkJoins (Machine.countLink l Stat.lnkStatusTaken
      (Machine.updModule l k (recordAfterStatus s.mu.isolation band selfFallback failed) s))
    else Machine.countLink l Stat.lnkStatusTaken
      (Machine.updModule l k (recordAfterStatus s.mu.isolation band selfFallback failed) s)) := by
    cases b
    · exact taken
    · exact taken.countLink l _
  split
  · exact Fits.trigger (joined _)
  · exact joined _

/-- A frame from a link (R104). -/
theorem Fits.receiveLink (h : Fits p s) (l : Link) (bytes : List Byte) : Fits p (receiveLink l bytes s) := by
  unfold Machine.receiveLink
  split
  case h_1 | h_2 => exact h.countLink l _
  case h_3 f _ =>
    split
    case isTrue => exact h.countLink l _
    case isFalse =>
      have heard : Fits p (Machine.countLink l Stat.lnkRxFrames
          (Machine.updModule l (frameSlot f) (fun m => { m with misses := 0 }) s)) :=
        Fits.countLink (Fits.updModule h ⟨rfl, rfl, rfl, rfl, rfl⟩) l _
      cases f
      case status => exact heard.takeStatus l _ _ _ _
      case blockAck => exact heard
      case passUp =>
        exact (heard.countLink l Stat.lnkPassUp).congr (by simp [takeModuleFrame]) (by simp [takeModuleFrame])
          (by simp [takeModuleFrame])

/-- What a completed transmission brings about (R106, R113, R114, R129). -/
theorem Fits.frameSent (h : Fits p s) (l : Link) (f : LinkFrame) : Fits p (frameSent l f s) := by
  have replies (k : Slot) (kind : PollKind) : Fits p (startReplyTimer l k kind s) := by
    unfold startReplyTimer
    split
    · exact h
    · exact Fits.updModule h ⟨rfl, rfl, rfl, rfl, rfl⟩
  unfold Machine.frameSent
  split
  case h_1 | h_3 => exact h.countLink l _
  case h_2 =>
    unfold applyTransmitted
    dsimp only
    split
    · split
      · refine Fits.endDelivery ?_
        exact h
      · exact h
    all_goals exact h
  case h_4 => exact replies _ _
  case h_5 => exact replies _ _

end Operations

/-! ## Events -/

/-- An event of PB. -/
theorem BuildEvent.keeps_fit {p : Link → Prop} {s t : State} (h : Fits p s) (e : BuildEvent s t) : Fits p t := by
  cases e
  case refresh => exact Fits.trigger h
  case completion =>
    unfold completeBuild
    dsimp only
    split
    · refine Fits.buildStart ?_
      exact h
    · exact h

/-- An event of DU. -/
theorem DeliveryEvent.keeps_fit {p : Link → Prop} {s t : State} (h : Fits p s) (e : DeliveryEvent s t) : Fits p t := by
  cases e
  case record =>
    unfold takeRecord
    split
    · refine Fits.startDelivery ?_ _
      exact h
    all_goals exact h
  case ack =>
    unfold takeAck
    split
    · exact h
    · split
      · exact h
      · split
        · refine Fits.leaveAckSet ?_ _ _ _
          exact h
        · exact h
  case broken =>
    unfold takeBroken
    split
    · split
      · refine Fits.leaveAckSet ?_ _ _ _
        exact h
      · exact h
    all_goals exact h
  case timeout =>
    unfold expireApply
    split
    · exact h.abandon _
    · exact h

/-- An event of a link. -/
theorem LinkEvent.keeps_fit {p : Link → Prop} {l : Link} {s t : State} (h : Fits p s) (e : LinkEvent l s t) :
    Fits p t := by
  cases e
  case frame bytes => exact h.receiveLink l bytes
  case replyTimeout k =>
    unfold expireReply
    dsimp only
    have stopped : Fits p (countLink l Stat.lnkReplyTimeouts
        (updModule l k (fun m => { m with outstanding := none }) s)) :=
      Fits.countLink (Fits.updModule h ⟨rfl, rfl, rfl, rfl, rfl⟩) l _
    split
    · exact stopped
    · exact stopped.miss l k
  case poll =>
    refine Fits.wake (Fits.updLink h (fun _ => ⟨rfl, rfl, rfl, rfl, rfl⟩) ?_) l
    rfl
  case wakeEnd =>
    obtain ⟨modules, sent⟩ := sendOrPark_keeps s.mu.tables.link (s.mu.tables.modules.get l)
      (rotationChoice (s.links.get l)) (s.links.get l)
    refine Fits.updLink h (fun k => ?_) sent
    rw [show (wakeGrant s.mu.tables.link (s.mu.tables.modules.get l) (s.links.get l)).modules = _ from modules]
    exact ⟨rfl, rfl, rfl, rfl, rfl⟩
  case sent f _ _ => exact (h.frameSent l f).grantNext l

/-- An event of UP. -/
theorem PortEvent.keeps_fit {p : Link → Prop} {s t : State} (h : Fits p s) (e : PortEvent s t) : Fits p t := by
  cases e
  case frame bytes _ =>
    have scored (n : Nat) (i : Fin 19) : Fits p (setScore n (countPort i s)) :=
      Fits.ofTriggers (s := countPort i s) h Triggers.none.after_setScore
    unfold receiveUpstream
    split
    case h_4 f _ =>
      have good := scored (s.up.score - 1) Stat.upRxGood
      unfold receiveGood sortFrame
      split
      · exact good.congr (by simp) (by simp) (by simp)
      · split
        case h_1 a _ =>
          cases a
          case passLeft => exact Fits.offerPass (s := countPort _ _) good _ _
          case passRight => exact Fits.offerPass (s := countPort _ _) good _ _
          case passBoth => exact Fits.offerPass (Fits.offerPass (s := countPort _ _) good _ _) _ _
          all_goals exact good.congr (by simp [placeByAction]) (by simp) (by simp)
        case h_2 => exact good
    all_goals exact scored _ _
  case recovery => exact h.congr (by simp [recoverPort]) (by simp [recoverPort]) (by simp [recoverPort])
  case sent => exact h

/-- A link that fits does with other tables, where the raw values read no table written (R171). -/
theorem loadLive_fits {s : State} {id : TableId} {u : Tables} (h : Fits (fun _ => True) s)
    (inConfig : s.mu.config = .config) (only : OnlyTable id s.mu.tables u) :
    Fits (fun _ => True) (tableLives id s.mu.tables { s with mu := { s.mu with tables := u } }) := by
  have stays (same : ∀ l modules, linkRaws u l modules = linkRaws s.mu.tables l modules) :
      Fits (fun _ => True) { s with mu := { s.mu with tables := u } } :=
    fun l hl => (h l hl).congr (same _ _) rfl rfl
  cases id
  case build | segMap => exact reportLinks_fits _
  case modules =>
    intro l hl
    simp only [OnlyTable] at only
    obtain ⟨broken, selfFallback, overtemp, _⟩ := h l hl
    have run : s.mu.config ≠ .run := by rw [inConfig]; decide
    refine ⟨broken, selfFallback, ?_, fun config => absurd config run⟩
    rw [only]
    exact overtemp
  all_goals exact stays fun l modules => by (simp only [OnlyTable] at only; rw [only]; rfl)

/-- A request carried out. -/
theorem CommandEffect.keeps_fit {s t : State} (h : Fits (fun _ => True) s) (e : CommandEffect s t) :
    Fits (fun _ => True) t := by
  cases e
  case loadLive id first entries u inConfig written =>
    have lives := loadLive_fits h inConfig (writeEntries_onlyTable written)
    cases id
    case modules => exact (Fits.treatAbsent lives .left).treatAbsent .right
    all_goals exact lives
  case commit => exact Fits.trigger (s := countManagement _ _) h
  case enterConfig =>
    refine Fits.trigger fun l hl => ?_
    obtain ⟨broken, selfFallback, overtemp, _⟩ := h l hl
    exact ⟨broken, selfFallback, overtemp, fun config => nomatch config⟩
  case exitConfig =>
    refine Fits.trigger (Fits.setUpLink (Fits.setUpLink fun l hl => ?_))
    obtain ⟨⟨_, notRight⟩, notLeft⟩ := hl
    cases l
    · exact absurd rfl notLeft
    · exact absurd rfl notRight
  case setHold value =>
    unfold setHoldLow
    split
    · exact h
    · refine Fits.trigger ?_
      exact h
  case setIsolation on =>
    have rejoined (l : Link) (u : State) (ok : Fits (fun _ => True) u) :
        Fits (fun _ => True) (allSlots.foldl (rejoinBroken l) u) := by
      refine List.foldlRecOn (motive := Fits _) _ _ ok fun v ok k _ => ?_
      unfold rejoinBroken
      split
      case isTrue broken =>
        exact ok.enterJoining (by rw [broken]; decide)
      case isFalse => exact ok
    exact rejoined .right _ (rejoined .left _ h)
  case clearStatistics g first count =>
    cases g
    case linkLeft => exact Fits.updLink h (fun _ => ⟨rfl, rfl, rfl, rfl, rfl⟩) rfl
    case linkRight => exact Fits.updLink h (fun _ => ⟨rfl, rfl, rfl, rfl, rfl⟩) rfl
    all_goals exact h
  case clearNotice numbers =>
    unfold clearNotices
    dsimp only
    split <;> exact h
  case recoverCondition => exact h.ofTriggers Triggers.none.after_settle
  case recoverModule l k present => exact h.enterJoining present
  case steerZero => exact h.congr (by simp) (by simp) (by simp)
  all_goals exact h

/-- After a reset the links have sent what stands (R122). -/
theorem fits_ofReset {s : State} {p : Link → Prop} (links : s.links = linksReset s.mu.tables) : Fits p s := by
  intro l _
  refine rawsFit_of_sent ?_
  rw [links]
  cases l <;> rfl

/-- Every event keeps what the links last sent standing. -/
theorem Event.keeps_fit {s t : State} (h : Fits (fun _ => True) s) (e : Event s t) : Fits (fun _ => True) t := by
  cases e
  case unmoved | linesMove => exact h
  case reset | restart => exact fits_ofReset rfl
  case resetAsserted =>
    intro l hl
    refine (h l hl).congr ?_ ?_ rfl
    · cases l <;> rfl
    · cases l <;> rfl
  case vehicle e => exact h.ofTriggers e.triggers
  case scene e => exact h.ofTriggers e.triggers
  case track e => exact h.ofTriggers e.triggers
  case build e => exact e.keeps_fit h
  case delivery e => exact e.keeps_fit h
  case link e => exact e.keeps_fit h
  case condition e => exact h.ofTriggers e.triggers
  case port e => exact e.keeps_fit h
  case request u f rest takes effect _ _ _ =>
    have carried : Fits (fun _ => True) u := effect.keeps_fit (s := afterTaking rest s) h
    exact carried

/-- Settles O60: transmitters awake and reports standing after every event; what the raw values and the window order
say is `linkRaws_iff` and `windowSegment_eq_some`. -/
theorem linksStayAwake : Obligations.LinksStayAwake := by
  refine ⟨step_keeps (fun _ _ h => h) (fun _ _ h => h) fun _ _ h e => e.keeps_awake h, fun s t h next => ?_,
    linkRaws_iff, windowSegment_eq_some⟩
  refine (linkRawsSound_iff t).mpr ?_
  exact step_keeps (fun _ _ h => h) (fun _ _ h => h) (fun _ _ h e => e.keeps_fit h) s t ((linkRawsSound_iff s).mp h) next

end Sys2Proof.Machine

/-! The upstream port: its queues, its score and its transmitter under every event (R151 to R154, R157, R160, R161). -/

namespace Sys2Proof.Machine

/-! ## What CM's events are made of -/

section ConditionClosure

variable {P : State → Prop} (mail : ∀ u m, P u → P { u with mail := m })
  (records : ∀ u r, P u → P { u with cm := { u.cm with recs := r } }) (settled : ∀ c m u, P u → P (settle c m u))

include records settled in
/-- What stored raw values and settled moves keep, a raw report taken keeps (R135). -/
theorem takeLevelReport_preserves {s : State} (x : LevelReport) (h : P s) : P (takeLevelReport x s) := by
  have stored := records s (s.cm.recs.set (condNo x.cond) (storeRaw x.link x.value (s.cm.recs.get (condNo x.cond)))) h
  unfold takeLevelReport
  dsimp only
  split
  · exact stored
  · exact settled _ _ _ stored

include mail records settled in
/-- And a raw report taken in the event that sends it (assumption 28). -/
theorem takeReportNow_preserves {s : State} (x : LevelReport) (h : P s) : P (takeReportNow x s) :=
  List.foldlRecOn (motive := P) _ _ (mail s _ h) fun _ ok y _ => takeLevelReport_preserves records settled y ok

include mail records settled in
/-- And every event of CM, if the action level worked out again keeps it too. -/
theorem ConditionEvent.preserves {s t : State} (rework : ∀ u, P u → P (reworkAction u)) (h : P s)
    (e : ConditionEvent s t) : P t := by
  cases e
  case report x _ => exact takeLevelReport_preserves records settled x (mail s _ h)
  case event c _ => exact settled _ _ _ (mail s _ h)
  case persistence | levelRecovery | eventRecovery => exact settled _ _ _ h
  case table x rest _ =>
    refine rework _ (List.foldlRecOn (motive := P) _ _ (mail s _ h) fun u ok c _ => ?_)
    unfold relatch
    split
    · exact settled _ _ _ ok
    · exact ok

end ConditionClosure

/-! ## The queues and the port -/

/-- UP's queues within their capacities (section 9.5). -/
def UpBounded (u : Up) : Prop :=
  u.objectQ.length ≤ objectCapacity ∧ u.vehicleQ.length ≤ vehicleCapacity ∧ u.mgmtQ.length ≤ managementCapacity
    ∧ u.replyQ.length ≤ replyCapacity ∧ u.passUpQ.length ≤ passUpCapacity

/-- UP went on with the port and the score as they were: its queues stay bounded, and a DETACHED port's transmitter
stays as it was. -/
structure UpQuiet (u v : Up) : Prop where
  bounded : UpBounded u → UpBounded v
  port : v.port = u.port
  score : v.score = u.score
  recovery : v.recovery = u.recovery
  tx : u.port = .detached → v.tx = u.tx

/-- The port's soundness is a matter of UP. -/
def PortOk (u : Up) : Prop :=
  (u.port = .normal → u.score < 48) ∧ (u.port = .warned → 48 ≤ u.score ∧ u.score < 144)
    ∧ (u.port = .detached → 144 ≤ u.score ∧ u.score ≤ 255 ∧ u.tx = none)
    ∧ (u.port = .detached ↔ u.recovery.isSome = true)

/-- What the statement asks of a state. -/
theorem portSound_iff (s : State) : PortSound s ↔ PortOk s.up := Iff.rfl

section Quiet

variable {u v w : Up}

/-- Nothing happened. -/
theorem UpQuiet.refl (u : Up) : UpQuiet u u := ⟨id, rfl, rfl, rfl, fun _ => rfl⟩

/-- One after the other. -/
theorem UpQuiet.trans (h : UpQuiet u v) (h' : UpQuiet v w) : UpQuiet u w :=
  ⟨h'.bounded ∘ h.bounded, h'.port.trans h.port, h'.score.trans h.score, h'.recovery.trans h.recovery,
    fun detached => (h'.tx (h.port.trans detached)).trans (h.tx detached)⟩

/-- The Notice slot is no part of it. -/
theorem UpQuiet.notice (h : UpQuiet u v) (n : Option Notice) : UpQuiet u { v with notice := n } := by
  obtain ⟨bounded, port, score, recovery, tx⟩ := h
  exact ⟨bounded, port, score, recovery, tx⟩

/-- The statistics are no part of it. -/
theorem UpQuiet.stats (h : UpQuiet u v) (x : Row 19 Nat) : UpQuiet u { v with stats := x } := by
  obtain ⟨bounded, port, score, recovery, tx⟩ := h
  exact ⟨bounded, port, score, recovery, tx⟩

/-- The frame chosen leaves its source (R161). -/
theorem upChoose_bounded (strap : Fin 4) (h : UpBounded u) : UpBounded (upChoose strap u) := by
  obtain ⟨object, vehicle, mgmt, replies, passUps⟩ := h
  unfold upChoose
  split
  case h_2 queue =>
    rw [queue, List.length_cons] at replies
    exact ⟨object, vehicle, mgmt, Nat.le_of_succ_le replies, passUps⟩
  case h_3 => split <;> exact ⟨object, vehicle, mgmt, replies, passUps⟩
  case h_4 queue =>
    rw [queue, List.length_cons] at passUps
    exact ⟨object, vehicle, mgmt, replies, Nat.le_of_succ_le passUps⟩
  all_goals exact ⟨object, vehicle, mgmt, replies, passUps⟩

/-- The frame chosen leaves the port, the score and the recovery timer (R161). -/
theorem upChoose_port (strap : Fin 4) (u : Up) : (upChoose strap u).port = u.port
    ∧ (upChoose strap u).score = u.score ∧ (upChoose strap u).recovery = u.recovery := by
  unfold upChoose
  split
  case h_3 => split <;> exact ⟨rfl, rfl, rfl⟩
  all_goals exact ⟨rfl, rfl, rfl⟩

/-- The transmitter that starts if it can (R161). -/
theorem upStartUp_quiet (strap : Fin 4) (u : Up) : UpQuiet u (upStartUp strap u) := by
  unfold upStartUp
  split
  case isTrue free =>
    rw [Bool.and_eq_true, decide_eq_true_iff] at free
    obtain ⟨attached, _⟩ := free
    obtain ⟨port, score, recovery⟩ := upChoose_port strap u
    exact ⟨upChoose_bounded strap, port, score, recovery, fun detached => absurd detached attached⟩
  case isFalse => exact .refl u

/-- A quiet port stays sound. -/
theorem UpQuiet.keeps_port (h : UpQuiet u v) (ok : PortOk u) : PortOk v := by
  obtain ⟨_, port, score, recovery, tx⟩ := h
  obtain ⟨normal, warned, detached, timer⟩ := ok
  unfold PortOk
  rw [port, score, recovery]
  refine ⟨normal, warned, fun isDetached => ?_, timer⟩
  obtain ⟨least, most, idle⟩ := detached isDetached
  exact ⟨least, most, (tx isDetached).trans idle⟩

end Quiet

section Operations

variable {s : State} {u : Up}

/-- The same UP. -/
theorem UpQuiet.ofEq {t : State} (h : UpQuiet u s.up) (same : t.up = s.up) : UpQuiet u t.up := same ▸ h

/-- A NOTICE placed (R146). -/
theorem UpQuiet.after_placeNotice (h : UpQuiet u s.up) : UpQuiet u (placeNotice s).up :=
  (h.notice _).trans (upStartUp_quiet _ _)

/-- A move settled (R145, R146). -/
theorem UpQuiet.after_settle {c : Cond} {m : Moved} (h : UpQuiet u s.up) : UpQuiet u (settle c m s).up :=
  settle_preserves (P := fun t => UpQuiet u t.up) (fun _ => h) (fun _ ok => ok.ofEq (by simp))
    fun _ ok => ok.after_placeNotice

/-- A raw report taken at once (assumption 28). -/
theorem UpQuiet.after_takeReportNow {x : LevelReport} (h : UpQuiet u s.up) : UpQuiet u (takeReportNow x s).up :=
  takeReportNow_preserves (P := fun t => UpQuiet u t.up) (fun _ _ ok => ok) (fun _ _ ok => ok)
    (fun _ _ _ ok => ok.after_settle) x h

/-- An event of CM. -/
theorem ConditionEvent.up_quiet {t : State} (e : ConditionEvent s t) : UpQuiet s.up t.up :=
  e.preserves (P := fun t => UpQuiet s.up t.up) (fun _ _ ok => ok) (fun _ _ ok => ok) (fun _ _ _ ok => ok.after_settle)
    (fun _ ok => ok.ofEq (by simp)) (.refl _)

/-- A PASS_UP offered (R160). -/
theorem UpQuiet.after_offerPassUp {f : PassFrame} (h : UpQuiet u s.up) : UpQuiet u (offerPassUp f s).up := by
  unfold offerPassUp
  split
  case isTrue room =>
    refine .trans (v := { s.up with passUpQ := s.up.passUpQ ++ [f] }) (h.trans ?_) (upStartUp_quiet _ _)
    refine ⟨fun ⟨object, vehicle, mgmt, replies, _⟩ => ⟨object, vehicle, mgmt, replies, ?_⟩, rfl, rfl, rfl, fun _ => rfl⟩
    rw [List.length_append]
    exact room
  case isFalse => exact h.stats _

/-- An event of a link: a PASS_UP may come (R120). -/
theorem LinkEvent.up_quiet {l : Link} {t : State} (e : LinkEvent l s t) : UpQuiet s.up t.up := by
  cases e
  case frame bytes =>
    unfold receiveLink
    split
    case h_1 | h_2 => exact .refl _
    case h_3 f _ =>
      split
      case isTrue => exact .refl _
      case isFalse =>
        cases f
        case status => exact UpQuiet.ofEq (s := s) (.refl _) (by simp [takeModuleFrame])
        case blockAck => exact .refl _
        case passUp => exact UpQuiet.after_offerPassUp (.refl _)
  case replyTimeout => exact UpQuiet.ofEq (s := s) (.refl _) (by simp)
  case poll | wakeEnd => exact .refl _
  case sent => exact UpQuiet.ofEq (s := s) (.refl _) (by simp)

/-- An event of VSB takes a frame of the Vehicle queue at most (R2). -/
theorem VehicleEvent.up_takes {t : State} (e : VehicleEvent s t) :
    t.up = { s.up with vehicleQ := t.up.vehicleQ } ∧ t.up.vehicleQ.length ≤ s.up.vehicleQ.length := by
  have same {u : State} (up : u.up = s.up) :
      u.up = { s.up with vehicleQ := u.up.vehicleQ } ∧ u.up.vehicleQ.length ≤ s.up.vehicleQ.length := by
    rw [up]
    exact ⟨rfl, Nat.le_refl _⟩
  cases e
  case frame =>
    unfold takeVehicleFrame
    split
    case h_1 => exact same rfl
    case h_2 queue =>
      dsimp only
      split <;> simp [queue]
  case staleness field => cases field <;> exact same (by simp [expireField])
  case step line => cases line <;> exact same (by simp [flipLine])
  case parameters => exact same (by simp [takeVehicleParameters])
  case speedTimeout => exact same (by simp [expireSpeedTimeout])
  all_goals exact same (by simp)

/-- An event of VSB. -/
theorem VehicleEvent.up_quiet {t : State} (e : VehicleEvent s t) : UpQuiet s.up t.up := by
  obtain ⟨rest, fewer⟩ := e.up_takes
  rw [rest]
  exact ⟨fun ⟨object, vehicle, others⟩ => ⟨object, fewer.trans vehicle, others⟩, rfl, rfl, rfl, fun _ => rfl⟩

/-- An event of SA takes a frame of the Object queue at most (R22). -/
theorem SceneEvent.up_takes {t : State} (e : SceneEvent s t) :
    t.up = { s.up with objectQ := t.up.objectQ } ∧ t.up.objectQ.length ≤ s.up.objectQ.length := by
  have same {u : State} (up : u.up = s.up) :
      u.up = { s.up with objectQ := u.up.objectQ } ∧ u.up.objectQ.length ≤ s.up.objectQ.length := by
    rw [up]
    exact ⟨rfl, Nat.le_refl _⟩
  cases e
  case frame =>
    unfold takeObjectFrame
    split
    case h_1 => exact same rfl
    case h_2 queue =>
      dsimp only
      split <;> simp [queue]
  case timeout => exact same (by simp [expireSceneTimer])
  case tear => exact same (by simp [takeTear])

/-- An event of SA. -/
theorem SceneEvent.up_quiet {t : State} (e : SceneEvent s t) : UpQuiet s.up t.up := by
  obtain ⟨rest, fewer⟩ := e.up_takes
  rw [rest]
  exact ⟨fun ⟨object, others⟩ => ⟨fewer.trans object, others⟩, rfl, rfl, rfl, fun _ => rfl⟩

/-- A request carried out, before its reply. -/
theorem CommandEffect.up_quiet {t : State} (e : CommandEffect s t) : UpQuiet s.up t.up := by
  cases e
  case clearStatistics g _ _ =>
    cases g
    case port => exact UpQuiet.stats (.refl _) _
    all_goals exact .refl _
  case clearNotice numbers =>
    unfold clearNotices
    dsimp only
    split
    · exact UpQuiet.after_placeNotice (s := { s with cm := _ }) (.refl _)
    · exact UpQuiet.notice (.refl _) _
  case recoverCondition => exact UpQuiet.after_settle (.refl _)
  case exitConfig => exact UpQuiet.ofEq (s := s) (.refl _) (by simp [Machine.exitConfig])
  all_goals exact UpQuiet.ofEq (s := s) (.refl _) (by simp)

/-! ## Frames received, the score and the recovery -/

/-- The frame in hand cut short: nothing is in hand, and a NOTICE comes back only while one is outstanding (R153). -/
theorem cutInHand_spec (outstanding : Bool) (u : Up) : ∃ held notice,
    cutInHand outstanding u = { u with tx := none, held := held, notice := notice }
      ∧ (notice.isSome = true → u.notice.isSome = true ∨ outstanding = true) := by
  unfold cutInHand
  split
  case h_1 idle => exact ⟨u.held, u.notice, by rw [← idle], .inl⟩
  case h_2 x _ =>
    split
    case h_1 | h_2 => exact ⟨some x, u.notice, rfl, .inl⟩
    case h_3 =>
      split
      case isTrue back =>
        rw [Bool.and_eq_true] at back
        exact ⟨u.held, _, rfl, fun _ => .inr back.2⟩
      case isFalse => exact ⟨u.held, u.notice, rfl, .inl⟩

/-- A score changed leaves the queues bounded (R151 to R153). -/
theorem setScore_bounded (n : Nat) (h : UpBounded s.up) : UpBounded (setScore n s).up := by
  unfold setScore
  dsimp only
  split
  case h_1 => exact h
  case h_2 => split <;> exact h
  case h_3 =>
    split
    · exact h
    · unfold detach
      dsimp only
      generalize entered : ({ s with up := _ } : State) = u
      have bounded : UpBounded u.up := entered ▸ h
      obtain ⟨_, _, cut, _⟩ := cutInHand_spec (takeReportNow ⟨.linkDetached, none, true⟩ u).cm.outstanding
        (takeReportNow ⟨.linkDetached, none, true⟩ u).up
      rw [cut]
      exact (UpQuiet.after_takeReportNow (x := ⟨.linkDetached, none, true⟩) (.refl u.up)).bounded bounded

/-- The band a score of an attached port lies in (R152). -/
theorem portAfter_band {port : PortState} (attached : port ≠ .detached) (n : Nat) :
    (portAfter port n = .normal ∧ n < 48) ∨ (portAfter port n = .warned ∧ 48 ≤ n ∧ n < 144)
      ∨ (portAfter port n = .detached ∧ 144 ≤ n) := by
  have band : portAfter port n = if n < 48 then .normal else if n < 144 then .warned else .detached := by
    cases port
    case detached => exact absurd rfl attached
    all_goals rfl
  rw [band]
  split
  · exact .inl ⟨rfl, by omega⟩
  · split
    · exact .inr (.inl ⟨rfl, by omega, by omega⟩)
    · exact .inr (.inr ⟨rfl, by omega⟩)

/-- A score changed on an attached port leaves its state the band the score lies in; DETACHED is entered with the
recovery timer running and nothing being sent (R151 to R153). -/
theorem setScore_port {n : Nat} (attached : s.up.port ≠ .detached) (stopped : s.up.recovery = none) (most : n ≤ 255) :
    PortOk (setScore n s).up := by
  unfold setScore
  dsimp only
  rcases portAfter_band attached n with ⟨port, low⟩ | ⟨port, least, less⟩ | ⟨port, least⟩
  · rw [port]
    exact ⟨fun _ => low, nofun, nofun, nofun, fun runs => by simp [stopped] at runs⟩
  · have warned (stats : Row 19 Nat) :
        PortOk { s.up with score := n, port := .warned, stats := stats } :=
      ⟨nofun, fun _ => ⟨least, less⟩, nofun, nofun, fun runs => by simp [stopped] at runs⟩
    rw [port]
    dsimp only
    split
    · exact warned _
    · exact warned _
  · rw [port]
    dsimp only
    rw [if_neg attached]
    unfold detach
    dsimp only
    generalize entered : ({ s with up := _ } : State) = u
    have quiet : UpQuiet u.up (takeReportNow ⟨.linkDetached, none, true⟩ u).up := .after_takeReportNow (.refl _)
    obtain ⟨_, _, cut, _⟩ := cutInHand_spec (takeReportNow ⟨.linkDetached, none, true⟩ u).cm.outstanding
      (takeReportNow ⟨.linkDetached, none, true⟩ u).up
    rw [cut]
    unfold PortOk
    dsimp only
    rw [quiet.port, quiet.score, quiet.recovery, ← entered]
    exact ⟨nofun, nofun, fun _ => ⟨least, most, rfl⟩, fun _ => by simp [startTimer_eq_some], fun _ => rfl⟩

/-- A good frame sorted leaves the port, and a queue it joins bounded (R155 to R158). -/
theorem sortFrame_quiet (f : UpFrame) (s : State) : UpQuiet s.up (sortFrame f s).up := by
  have joins {i : Fin 19} {v : Up} (h : UpQuiet s.up v) : UpQuiet s.up { v with stats := bumpAt i v.stats } := h.stats _
  unfold sortFrame
  split
  case isTrue =>
    unfold offerManagement
    split
    case isTrue room =>
      refine joins ⟨fun ⟨object, vehicle, _, rest⟩ => ⟨object, vehicle, ?_, rest⟩, rfl, rfl, rfl, fun _ => rfl⟩
      rw [List.length_append]
      exact room
    case isFalse => exact joins (.refl _)
  case isFalse =>
    split
    case h_2 => exact joins (.refl _)
    case h_1 a _ =>
      cases a
      case object =>
        show UpQuiet s.up (offerObject f s).up
        unfold offerObject
        split
        case isTrue room =>
          refine joins ⟨fun ⟨_, rest⟩ => ⟨?_, rest⟩, rfl, rfl, rfl, fun _ => rfl⟩
          rw [List.length_append]
          exact room
        case isFalse => exact joins (.refl _)
      case vehicle =>
        show UpQuiet s.up (offerVehicle f s).up
        unfold offerVehicle
        dsimp only
        split
        case isTrue full =>
          have displaced : UpQuiet s.up { s.up with vehicleQ := s.up.vehicleQ.tail ++ [f] } := by
            refine ⟨fun ⟨object, vehicle, rest⟩ => ⟨object, ?_, rest⟩, rfl, rfl, rfl, fun _ => rfl⟩
            have room : 0 < vehicleCapacity := by decide
            simp at full ⊢
            omega
          exact joins (joins displaced)
        case isFalse room =>
          refine joins ⟨fun ⟨object, vehicle, rest⟩ => ⟨object, ?_, rest⟩, rfl, rfl, rfl, fun _ => rfl⟩
          simp at room ⊢
          omega
      case discard => exact joins (.refl _)
      all_goals exact (joins (.refl _)).ofEq (s := countPort Stat.upPassDown s) (by simp [placeByAction])

/-- An event of UP leaves its queues bounded. -/
theorem PortEvent.keeps_bounded {t : State} (h : UpBounded s.up) (e : PortEvent s t) : UpBounded t.up := by
  cases e
  case frame bytes _ =>
    unfold receiveUpstream
    split
    case h_4 => exact (sortFrame_quiet _ _).bounded (setScore_bounded _ h)
    all_goals exact setScore_bounded _ h
  case recovery => exact (upStartUp_quiet _ _).bounded h
  case sent => exact (upStartUp_quiet _ _).bounded h

/-- An event of UP leaves the port's state its score's band (R151 to R154). -/
theorem PortEvent.keeps_port {t : State} (h : PortOk s.up) (e : PortEvent s t) : PortOk t.up := by
  obtain ⟨normal, warned, detached, timer⟩ := h
  cases e
  case frame bytes attached =>
    have stopped : s.up.recovery = none := by
      cases recovery : s.up.recovery
      case none => rfl
      case some => exact absurd (timer.mpr (by simp [recovery])) attached
    have most : s.up.score - 1 ≤ 255 := by
      cases port : s.up.port
      case normal => have := normal port; omega
      case warned => have := warned port; omega
      case detached => exact absurd port attached
    unfold receiveUpstream
    split
    case h_4 => exact (sortFrame_quiet _ _).keeps_port (setScore_port attached stopped most)
    all_goals exact setScore_port attached stopped (Nat.min_le_left _ _)
  case recovery =>
    refine (upStartUp_quiet _ _).keeps_port ⟨fun _ => ?_, nofun, nofun, nofun, nofun⟩
    exact Nat.zero_lt_succ _
  case sent =>
    refine (upStartUp_quiet _ _).keeps_port ⟨normal, warned, fun isDetached => ?_, timer⟩
    obtain ⟨least, most, _⟩ := detached isDetached
    exact ⟨least, most, rfl⟩

end Operations

end Sys2Proof.Machine

/-! The links' queues under every event: how each goes on, apart from what DU does to it (R113 to R115). -/

namespace Sys2Proof.Machine

/-! ## One link -/

/-- A link's queues went on: the Pass queue stays within its capacity, and the Pattern queue and the transmitter agree
with a delivery as before. -/
structure SlcFollows (c d : Slc) : Prop where
  pass : c.passQ.length ≤ passCapacity → d.passQ.length ≤ passCapacity
  pattern : ∀ delivering done, QueueAgrees delivering done c.patternQ (SendsApply c.tx) →
    QueueAgrees delivering done d.patternQ (SendsApply d.tx)

section OneLink

variable {c d e : Slc}

/-- The same queues and transmitter. -/
theorem SlcFollows.ofSame (pattern : d.patternQ = c.patternQ) (pass : d.passQ = c.passQ) (tx : d.tx = c.tx) :
    SlcFollows c d := by
  refine ⟨fun h => pass ▸ h, fun _ _ h => ?_⟩
  rw [pattern, tx]
  exact h

/-- One after the other. -/
theorem SlcFollows.trans (h : SlcFollows c d) (h' : SlcFollows d e) : SlcFollows c e :=
  ⟨h'.pass ∘ h.pass, fun delivering done ok => h'.pattern _ _ (h.pattern delivering done ok)⟩

/-- A transmitter that looks for requests (R115). -/
theorem SlcFollows.wake (h : SlcFollows c d) : SlcFollows c (wakeSlc d) := by
  refine h.trans ⟨fun ok => ?_, fun delivering done ok => ?_⟩
  · rw [wakeSlc_eq]
    exact ok
  · rw [show SendsApply (wakeSlc d).tx = SendsApply d.tx from propext (sendsApply_wakeSlc d), wakeSlc_eq]
    exact ok

/-- Blocks taken from the Pattern queue (R103, R109). -/
theorem SlcFollows.filter {p : PatternFrame → Bool} (keepsApply : ∀ g, p (.apply g) = true)
    (pattern : d.patternQ = c.patternQ.filter p) (pass : d.passQ = c.passQ) (tx : d.tx = c.tx) : SlcFollows c d := by
  refine ⟨fun h => pass ▸ h, fun _ _ h => ?_⟩
  rw [pattern, tx]
  exact h.filter p keepsApply

/-- The Pass queue only loses its head to a grant (R115). -/
theorem takeHead_pass {w : Row 4 ModuleEntry} {m : Member} {f : LinkFrame} (h : takeHead w m c = some (f, d)) :
    d.passQ.length ≤ c.passQ.length := by
  unfold takeHead at h
  cases m
  case pattern =>
    dsimp only at h
    split at h
    · cases h; exact Nat.le_refl _
    · cases h
  case pass =>
    dsimp only at h
    split at h
    case h_1 queue => cases h; rw [queue]; exact Nat.le_succ _
    case h_2 => cases h
  case pollGroup =>
    obtain ⟨⟨k, kind⟩, _, taken⟩ := Option.map_eq_some_iff.mp h
    cases taken
    exact Nat.le_refl _

/-- And to no other step of a transmitter. -/
theorem sendOrPark_pass (p : LinkParams) (w : Row 4 ModuleEntry) (choice : Option Member) (c : Slc) :
    (sendOrPark p w choice c).passQ.length ≤ c.passQ.length := by
  unfold sendOrPark
  split
  case h_1 m f c' granted =>
    obtain ⟨_, _, taken⟩ := Option.bind_eq_some_iff.mp granted
    obtain ⟨⟨_, _⟩, head, same⟩ := Option.map_eq_some_iff.mp taken
    cases same
    exact takeHead_pass (d := c') head
  case h_2 => exact Nat.le_refl _

/-- A grant with no APPLY being sent (R115 to R118). -/
theorem SlcFollows.sendOrPark (quiet : ¬SendsApply c.tx) (p : LinkParams) (w : Row 4 ModuleEntry)
    (choice : Option Member) : SlcFollows c (sendOrPark p w choice c) := by
  refine ⟨(sendOrPark_pass p w choice c).trans, fun delivering done h => ?_⟩
  rw [eq_false quiet] at h
  exact h.sendOrPark p w choice

end OneLink

/-! ## Both links -/

/-- Both links' queues went on, with the delivery as it was. -/
structure LinksFollow (s t : State) : Prop where
  links : ∀ l, SlcFollows (s.links.get l) (t.links.get l)
  delivering : t.du.delivering = s.du.delivering
  applyDone : t.du.applyDone = s.du.applyDone

section Operations

variable {s t u : State}

/-- Nothing happened. -/
theorem LinksFollow.refl (s : State) : LinksFollow s s := ⟨fun _ => .ofSame rfl rfl rfl, rfl, rfl⟩

/-- One after the other. -/
theorem LinksFollow.trans (h : LinksFollow s t) (h' : LinksFollow t u) : LinksFollow s u :=
  ⟨fun l => (h.links l).trans (h'.links l), h'.delivering.trans h.delivering, h'.applyDone.trans h.applyDone⟩

/-- The same links and delivery. -/
theorem LinksFollow.congr (h : LinksFollow s t) (links : u.links = t.links) (du : u.du = t.du) : LinksFollow s u :=
  ⟨fun l => by rw [links]; exact h.links l, by rw [du]; exact h.delivering, by rw [du]; exact h.applyDone⟩

/-- A change of one link that its queues follow. -/
theorem LinksFollow.updLink (h : LinksFollow s t) {l : Link} {f : Slc → Slc}
    (follows : SlcFollows (t.links.get l) (f (t.links.get l))) : LinksFollow s (updLink l f t) := by
  refine ⟨fun m => ?_, h.delivering, h.applyDone⟩
  by_cases here : m = l
  · subst here
    rw [updLink_links, Both.get_set_same]
    exact (h.links m).trans follows
  · rw [updLink_links, Both.get_set_other _ _ here]
    exact h.links m

/-- A change of what the links last sent CM, with the delivery as it was. -/
theorem LinksFollow.ofSent (h : LinksFollow s t) (links : ∀ m, ∃ sent, u.links.get m = { t.links.get m with sent := sent })
    (du : u.du = t.du) : LinksFollow s u := by
  refine ⟨fun m => ?_, by rw [du]; exact h.delivering, by rw [du]; exact h.applyDone⟩
  obtain ⟨sent, same⟩ := links m
  rw [same]
  exact (h.links m).trans (.ofSame rfl rfl rfl)

/-- A link that reports (R112). -/
theorem LinksFollow.after_reportLink (h : LinksFollow s t) (l : Link) : LinksFollow s (reportLink l t) := by
  refine h.ofSent (fun m => ?_) (by simp)
  rw [reportLink_eq]
  by_cases same : m = l
  · subst same
    exact ⟨_, Both.get_set_same ..⟩
  · exact ⟨(t.links.get m).sent, Both.get_set_other _ _ same⟩

/-- The start of a build (R64). -/
theorem LinksFollow.after_buildStart (h : LinksFollow s t) : LinksFollow s (buildStart t) := by
  refine h.ofSent (fun m => ?_) (by simp)
  have only := buildStart_onlyBuild t
  unfold OnlyBuild at only
  rw [only]
  cases m <;> exact ⟨_, rfl⟩

/-- A build trigger (R61). -/
theorem LinksFollow.after_trigger (h : LinksFollow s t) : LinksFollow s (trigger t) := by
  unfold trigger
  split
  · exact h.after_buildStart
  · exact h.congr rfl rfl

/-- Build triggers alone. -/
theorem LinksFollow.after_triggers (h : LinksFollow s t) (triggers : Triggers SameCore t u) : LinksFollow s u :=
  triggers.keeps (P := LinksFollow s) (fun _ _ same ok => ok.congr same.links same.du) (fun _ ok => ok.after_trigger) h

/-- A count. -/
theorem LinksFollow.after_countLink (h : LinksFollow s t) (l : Link) (i : Fin 13) : LinksFollow s (countLink l i t) :=
  h.updLink (.ofSame rfl rfl rfl)

/-- A Module record changed. -/
theorem LinksFollow.after_updModule (h : LinksFollow s t) (l : Link) (k : Slot) (f : ModuleRec → ModuleRec) :
    LinksFollow s (updModule l k f t) :=
  h.updLink (.ofSame rfl rfl rfl)

/-- A transmitter that looks for requests (R115). -/
theorem LinksFollow.after_wake (h : LinksFollow s t) (l : Link) : LinksFollow s (wake l t) :=
  h.updLink (.wake (.ofSame rfl rfl rfl))

/-- The next grant, with no APPLY being sent (R115). -/
theorem LinksFollow.after_grantNext (h : LinksFollow s t) {l : Link} (quiet : ¬SendsApply (t.links.get l).tx) :
    LinksFollow s (grantNext l t) :=
  h.updLink (.sendOrPark quiet _ _ _)

/-- A transmission cut short: an APPLY, which is for no slot, never is (R109). -/
theorem LinksFollow.after_cutShort (h : LinksFollow s t) (l : Link) (k : Slot) : LinksFollow s (cutShort l k t) := by
  cases sending : (t.links.get l).tx
  case sending f q =>
    by_cases addressed : frameAddress f = some k
    case pos =>
      rw [cutShort_sending l k t f q sending addressed]
      have counted : (countCut f (t.links.get l)).patternQ = (t.links.get l).patternQ
          ∧ (countCut f (t.links.get l)).passQ = (t.links.get l).passQ
          ∧ (countCut f (t.links.get l)).tx = (t.links.get l).tx := by
        unfold countCut
        dsimp only
        split <;> exact ⟨rfl, rfl, rfl⟩
      obtain ⟨pattern, pass, tx⟩ := counted
      refine (h.updLink (.ofSame pattern pass tx)).after_grantNext ?_
      rw [updLink_links, Both.get_set_same, tx, sending]
      exact not_sendsApply q fun g apply => by rw [apply] at addressed; cases addressed
    case neg =>
      rw [cutShort_other l k t fun f' q' sending' => by rw [sending] at sending'; cases sending'; exact addressed]
      exact h
  all_goals
    rw [cutShort_other l k t fun f' q' sending' => by rw [sending] at sending'; cases sending']
    exact h

/-- A module broken (R109). -/
theorem LinksFollow.after_becomeBroken (h : LinksFollow s t) (l : Link) (k : Slot) :
    LinksFollow s (becomeBroken l k t) := by
  unfold becomeBroken
  dsimp only
  refine LinksFollow.after_reportLink ?_ l
  have broken := (h.after_updModule l k fun m => { m with state := .broken }).after_countLink l Stat.lnkBreaks
  have told : LinksFollow s { countLink l Stat.lnkBreaks (updModule l k (fun m => { m with state := .broken }) t) with
      mail := { t.mail with broken := t.mail.broken ++ [(l, k)] } } := broken.congr rfl rfl
  split
  · exact (told.updLink (.filter (fun _ => rfl) rfl rfl rfl)).after_cutShort l k
  · exact told

/-- A miss, with the break it may bring (R108). -/
theorem LinksFollow.after_miss (h : LinksFollow s t) (l : Link) (k : Slot) : LinksFollow s (miss l k t) := by
  have counted := (h.after_updModule l k fun m => { m with misses := min 15 (m.misses + 1) }).after_countLink l
    Stat.lnkMisses
  unfold miss
  dsimp only
  split
  · exact counted.after_becomeBroken l k
  · exact counted

/-- Entering JOINING (R105). -/
theorem LinksFollow.after_enterJoining (h : LinksFollow s t) (l : Link) (k : Slot) :
    LinksFollow s (enterJoining l k t) := by
  have woken : LinksFollow s (wake l (Machine.updLink l (joinSlot k) t)) :=
    (h.updLink (.ofSame rfl rfl rfl)).after_wake l
  unfold enterJoining
  dsimp only
  split
  · exact woken.after_reportLink l
  · exact woken

/-- A link set up again: blocks to slots now not present leave (R103). -/
theorem LinksFollow.after_setUpLink (h : LinksFollow s t) (l : Link) : LinksFollow s (setUpLink l t) := by
  unfold setUpLink
  dsimp only
  have woken {f : Slc → Slc} (follows : SlcFollows (t.links.get l) (f (t.links.get l))) (raws : LinkRaws) :
      LinksFollow s (Machine.updLink l (fun c => { c with sent := raws }) (wake l (Machine.updLink l f t))) :=
    ((h.updLink follows).after_wake l).updLink (.ofSame rfl rfl rfl)
  refine (woken (.filter (p := fun f => match f with
    | .block k _ _ => ((t.mu.tables.modules.get l).get k).present
    | .apply _ => true) (fun _ => rfl) ?_ rfl rfl) _).congr rfl rfl
  rfl

/-- Slots treated as ABSENT (R101). -/
theorem LinksFollow.after_treatAbsent (h : LinksFollow s t) (l : Link) : LinksFollow s (treatAbsent l t) := by
  unfold treatAbsent
  dsimp only
  split
  · exact (h.updLink (.ofSame rfl rfl rfl)).after_reportLink l
  · exact h

/-- A frame offered to a Pass queue that has room, or dropped (R114). -/
theorem LinksFollow.after_offerPass (h : LinksFollow s t) (l : Link) (f : PassFrame) :
    LinksFollow s (offerPass l f t) := by
  unfold offerPass
  split
  case isTrue room =>
    refine (h.updLink ⟨fun _ => ?_, fun _ _ ok => ok⟩).after_wake l
    rw [List.length_append]
    exact room
  case isFalse => exact h.after_countLink l _

/-- A STATUS taken (R107). -/
theorem LinksFollow.after_takeStatus (h : LinksFollow s t) (l : Link) (k : Slot) (band : Nat) (selfFallback : Bool)
    (failed : List Nat) : LinksFollow s (takeStatus l k band selfFallback failed t) := by
  unfold takeStatus
  dsimp only
  refine LinksFollow.after_reportLink ?_ l
  have taken := (h.after_updModule l k (recordAfterStatus t.mu.isolation band selfFallback failed)).after_countLink l
    Stat.lnkStatusTaken
  have joined (b : Bool) : LinksFollow s (if b then countLink l Stat.lnkJoins (countLink l Stat.lnkStatusTaken
      (updModule l k (recordAfterStatus t.mu.isolation band selfFallback failed) t))
    else countLink l Stat.lnkStatusTaken
      (updModule l k (recordAfterStatus t.mu.isolation band selfFallback failed) t)) := by
    cases b
    · exact taken
    · exact taken.after_countLink l _
  split
  · exact (joined _).after_trigger
  · exact joined _

/-- A frame from a link (R104). -/
theorem LinksFollow.after_receiveLink (h : LinksFollow s t) (l : Link) (bytes : List Byte) :
    LinksFollow s (receiveLink l bytes t) := by
  unfold receiveLink
  split
  case h_1 | h_2 => exact h.after_countLink l _
  case h_3 f _ =>
    split
    case isTrue => exact h.after_countLink l _
    case isFalse =>
      have heard := (h.after_updModule l (frameSlot f) fun m => { m with misses := 0 }).after_countLink l Stat.lnkRxFrames
      cases f
      case status => exact heard.after_takeStatus l _ _ _ _
      case blockAck => exact heard.congr rfl rfl
      case passUp =>
        exact (heard.after_countLink l Stat.lnkPassUp).congr (by simp [takeModuleFrame]) (by simp [takeModuleFrame])

/-- A completed transmission that was no APPLY touches no queue (R106, R113, R114). -/
theorem LinksFollow.after_frameSent (h : LinksFollow s t) (l : Link) {f : LinkFrame} (other : ∀ g, f ≠ .pattern (.apply g)) :
    LinksFollow s (frameSent l f t) := by
  have replies (k : Slot) (kind : PollKind) : LinksFollow s (startReplyTimer l k kind t) := by
    unfold startReplyTimer
    split
    · exact h
    · exact h.after_updModule l k _
  unfold frameSent
  split
  case h_1 | h_3 => exact h.after_countLink l _
  case h_2 g => exact absurd rfl (other g)
  case h_4 => exact replies _ _
  case h_5 => exact replies _ _

/-- Nor does it touch a transmitter. -/
theorem frameSent_tx (l : Link) {f : LinkFrame} (other : ∀ g, f ≠ .pattern (.apply g)) (s : State) :
    ((frameSent l f s).links.get l).tx = (s.links.get l).tx := by
  have counted (i : Fin 13) : ((countLink l i s).links.get l).tx = (s.links.get l).tx := by
    unfold countLink
    rw [updLink_links, Both.get_set_same]
  have replies (k : Slot) (kind : PollKind) : ((startReplyTimer l k kind s).links.get l).tx = (s.links.get l).tx := by
    unfold startReplyTimer
    split
    · rfl
    · unfold updModule
      rw [updLink_links, Both.get_set_same]
  unfold frameSent
  split
  case h_1 | h_3 => exact counted _
  case h_2 g => exact absurd rfl (other g)
  case h_4 => exact replies _ _
  case h_5 => exact replies _ _

end Operations

/-! ## Events -/

section Events

variable {s t : State}

/-- An event of PB. -/
theorem BuildEvent.follows (e : BuildEvent s t) : LinksFollow s t := by
  cases e
  case refresh => exact LinksFollow.after_trigger ((LinksFollow.refl s).congr rfl rfl)
  case completion =>
    unfold completeBuild
    dsimp only
    split
    · exact LinksFollow.after_buildStart ((LinksFollow.refl s).congr rfl rfl)
    · exact (LinksFollow.refl s).congr rfl rfl

/-- An event of a link that is no APPLY's completion. -/
theorem LinkEvent.follows {l : Link} (e : LinkEvent l s t) :
    LinksFollow s t ∨ ∃ g q, (s.links.get l).tx = .sending (.pattern (.apply g)) q
      ∧ t = grantNext l (applyTransmitted l s) := by
  cases e
  case frame bytes => exact .inl ((LinksFollow.refl s).after_receiveLink l bytes)
  case replyTimeout k =>
    refine .inl ?_
    have stopped := ((LinksFollow.refl s).after_updModule l k fun m => { m with outstanding := none }).after_countLink l
      Stat.lnkReplyTimeouts
    unfold expireReply
    dsimp only
    split
    · exact stopped
    · exact stopped.after_miss l k
  case poll => exact .inl (((LinksFollow.refl s).updLink (.ofSame rfl rfl rfl)).after_wake l)
  case wakeEnd waking =>
    refine .inl ((LinksFollow.refl s).updLink (.sendOrPark ?_ _ _ _))
    rw [waking]
    rintro ⟨_, _, sends⟩
    cases sends
  case sent f q sending =>
    by_cases apply : ∃ g, f = .pattern (.apply g)
    case pos =>
      obtain ⟨g, rfl⟩ := apply
      exact .inr ⟨g, q, sending, rfl⟩
    case neg =>
      have other (g : Byte) : f ≠ .pattern (.apply g) := fun same => apply ⟨g, same⟩
      refine .inl (((LinksFollow.refl s).after_frameSent l other).after_grantNext ?_)
      rw [frameSent_tx l other, sending]
      exact not_sendsApply q other

/-- An event of UP. -/
theorem PortEvent.follows (e : PortEvent s t) : LinksFollow s t := by
  cases e
  case frame bytes _ =>
    have scored (n : Nat) (i : Fin 19) : LinksFollow s (setScore n (countPort i s)) :=
      LinksFollow.after_triggers (t := countPort i s) ((LinksFollow.refl s).congr rfl rfl) Triggers.none.after_setScore
    unfold receiveUpstream
    split
    case h_4 f _ =>
      have good := scored (s.up.score - 1) Stat.upRxGood
      unfold receiveGood sortFrame
      split
      · exact good.congr (by simp) (by simp)
      · split
        case h_1 a _ =>
          have counted : LinksFollow s (countPort Stat.upPassDown (setScore (s.up.score - 1) (countPort Stat.upRxGood s))) :=
            good.congr rfl rfl
          cases a
          case passLeft => exact counted.after_offerPass _ _
          case passRight => exact counted.after_offerPass _ _
          case passBoth => exact (counted.after_offerPass _ _).after_offerPass _ _
          all_goals exact good.congr (by simp [placeByAction]) (by simp)
        case h_2 => exact good.congr rfl rfl
    all_goals exact scored _ _
  case recovery => exact (LinksFollow.refl s).congr (by simp [recoverPort]) (by simp [recoverPort])
  case sent => exact (LinksFollow.refl s).congr rfl rfl

/-- A request carried out. -/
theorem CommandEffect.follows (e : CommandEffect s t) : LinksFollow s t := by
  have same {u : State} (links : u.links = s.links) (du : u.du = s.du) : LinksFollow s u :=
    (LinksFollow.refl s).congr links du
  cases e
  case loadLive id first entries u _ _ =>
    have lives : LinksFollow s (tableLives id s.mu.tables { s with mu := { s.mu with tables := u } }) := by
      cases id
      case build | segMap =>
        refine LinksFollow.after_reportLink (LinksFollow.after_reportLink ?_ .left) .right
        exact same rfl rfl
      all_goals exact same rfl rfl
    cases id
    case modules => exact (lives.after_treatAbsent .left).after_treatAbsent .right
    all_goals exact lives
  case commit | enterConfig => refine LinksFollow.after_trigger ?_; exact same rfl rfl
  case exitConfig =>
    refine LinksFollow.after_trigger (LinksFollow.after_setUpLink (LinksFollow.after_setUpLink ?_ .left) .right)
    exact same rfl rfl
  case setHold value =>
    unfold setHoldLow
    split
    · exact .refl s
    · refine LinksFollow.after_trigger ?_
      exact same rfl rfl
  case setIsolation on =>
    have rejoined (l : Link) {u : State} (ok : LinksFollow s u) :
        LinksFollow s (allSlots.foldl (rejoinBroken l) u) := by
      refine List.foldlRecOn (motive := LinksFollow s) _ _ ok fun v ok k _ => ?_
      unfold rejoinBroken
      split
      · exact ok.after_enterJoining l k
      · exact ok
    refine rejoined .right (rejoined .left ?_)
    exact same rfl rfl
  case clearStatistics g first count =>
    cases g
    case linkLeft | linkRight =>
      exact (LinksFollow.refl s).updLink (f := fun c => { c with stats := clearCells first count c.stats })
        (.ofSame rfl rfl rfl)
    case delivery => exact ⟨fun _ => .ofSame rfl rfl rfl, rfl, rfl⟩
    all_goals exact same rfl rfl
  case clearNotice numbers =>
    unfold clearNotices
    dsimp only
    split <;> exact same rfl rfl
  case recoverCondition => exact (LinksFollow.refl s).after_triggers Triggers.none.after_settle
  case recoverModule l k _ => exact (LinksFollow.refl s).after_enterJoining l k
  case steerZero => exact same (by simp) (by simp)
  all_goals exact same rfl rfl

end Events

end Sys2Proof.Machine

/-! The Pattern queues under DU's events (R124, R128 to R130), and what every event keeps of the queues. -/

namespace Sys2Proof.Machine

/-! ## The Pass queues under DU's events -/

/-- No Pass queue holds more than its capacity (R114). -/
def PassBounded (s : State) : Prop := ∀ l, (s.links.get l).passQ.length ≤ passCapacity

section Pass

variable {s t : State}

/-- Links that go on stay bounded. -/
theorem LinksFollow.keeps_pass (h : LinksFollow s t) (ok : PassBounded s) : PassBounded t :=
  fun l => (h.links l).pass (ok l)

/-- A link whose Pass queue grows no longer. -/
theorem PassBounded.updLink (h : PassBounded s) {l : Link} {f : Slc → Slc}
    (fewer : (f (s.links.get l)).passQ.length ≤ (s.links.get l).passQ.length) : PassBounded (updLink l f s) := by
  intro m
  by_cases here : m = l
  · subst here
    rw [updLink_links, Both.get_set_same]
    exact fewer.trans (h m)
  · rw [updLink_links, Both.get_set_other _ _ here]
    exact h m

/-- The same links. -/
theorem PassBounded.congr (h : PassBounded s) (links : t.links = s.links) : PassBounded t := fun l => links ▸ h l

/-- A grant (R115). -/
theorem PassBounded.grantNext (h : PassBounded s) (l : Link) : PassBounded (grantNext l s) :=
  h.updLink (sendOrPark_pass _ _ _ _)

/-- Pattern frames placed (R113). -/
theorem PassBounded.placePattern (h : PassBounded s) (l : Link) (fs : List PatternFrame) :
    PassBounded (placePattern l fs s) := by
  refine PassBounded.updLink (h.updLink ?_) ?_
  · exact Nat.le_refl _
  · rw [wakeSlc_eq]

/-- Blocks placed (R124). -/
theorem PassBounded.placeBlocks (h : PassBounded s) (l : Link) (fs : List PatternFrame) :
    PassBounded (placeBlocks l fs s) := by
  unfold Machine.placeBlocks
  split
  · exact h
  · exact h.placePattern l fs

/-- A delivery started (R124). -/
theorem PassBounded.startDelivery (h : PassBounded s) (g : GenRecord) : PassBounded (startDelivery g s) := by
  unfold Machine.startDelivery
  dsimp only
  split
  · exact h.congr (by simp)
  · exact PassBounded.placeBlocks (PassBounded.placeBlocks (h.congr (by simp)) _ _) _ _

/-- A delivery ended (R123). -/
theorem PassBounded.endDelivery (h : PassBounded s) : PassBounded (endDelivery s) := by
  unfold Machine.endDelivery
  dsimp only
  split
  · exact h
  · refine PassBounded.startDelivery ?_ _
    exact h

/-- A member left the ack set (R126 to R128). -/
theorem PassBounded.leaveAckSet (h : PassBounded s) (g : GenRecord) (l : Link) (k : Slot) :
    PassBounded (leaveAckSet g l k s) := by
  unfold Machine.leaveAckSet
  dsimp only
  split
  · refine PassBounded.placePattern (PassBounded.placePattern ?_ _ _) _ _
    exact h
  · exact h

/-- The ack set's members charged a miss (R108, R130). -/
theorem LinksFollow.after_charges (s : State) :
    LinksFollow s (s.du.ackSet.foldl (fun s m => chargeMiss m.1 m.2 s) s) := by
  refine List.foldlRecOn (motive := LinksFollow s) _ _ (.refl s) fun u ok m _ => ?_
  unfold chargeMiss
  split
  · exact ok
  · exact ok.after_miss m.1 m.2

/-- An event of DU. -/
theorem DeliveryEvent.keeps_pass (h : PassBounded s) (e : DeliveryEvent s t) : PassBounded t := by
  cases e
  case record =>
    unfold takeRecord
    split
    · refine PassBounded.startDelivery ?_ _
      exact h
    all_goals exact h
  case ack =>
    unfold takeAck
    split
    · exact h
    · split
      · exact h
      · split
        · refine PassBounded.leaveAckSet ?_ _ _ _
          exact h
        · exact h
  case broken =>
    unfold takeBroken
    split
    · split
      · refine PassBounded.leaveAckSet ?_ _ _ _
        exact h
      · exact h
    all_goals exact h
  case timeout =>
    unfold expireApply
    split
    · unfold abandon
      refine PassBounded.endDelivery (PassBounded.congr (s := dropBlocks _ .right (dropBlocks _ .left _))
        (PassBounded.updLink (PassBounded.updLink ((LinksFollow.after_charges s).keeps_pass h) ?_) ?_) rfl)
      · exact Nat.le_refl _
      · exact Nat.le_refl _
    · exact h

/-- An APPLY transmitted (R129). -/
theorem PassBounded.applyTransmitted (h : PassBounded s) (l : Link) : PassBounded (applyTransmitted l s) := by
  unfold Machine.applyTransmitted
  dsimp only
  split
  · split
    · refine PassBounded.endDelivery ?_
      exact h
    · exact h
  all_goals exact h

/-- An event of a link. -/
theorem LinkEvent.keeps_pass {l : Link} (h : PassBounded s) (e : LinkEvent l s t) : PassBounded t := by
  rcases e.follows with follows | ⟨_, _, _, rfl⟩
  · exact follows.keeps_pass h
  · exact (h.applyTransmitted l).grantNext l

end Pass

/-! ## The Pattern queues -/

section Pattern

variable {s t : State}

/-- Links that go on agree with the delivery as before. -/
theorem LinksFollow.keeps_agrees (h : LinksFollow s t) {l : Link} (ok : LinkAgrees l s) : LinkAgrees l t := by
  unfold LinkAgrees
  rw [h.delivering, h.applyDone]
  exact (h.links l).pattern _ _ ok

/-- Agreement is a matter of the links, what is being delivered and whose APPLY is done. -/
theorem LinkAgrees.congr {l : Link} (h : LinkAgrees l s) (links : t.links = s.links)
    (delivering : t.du.delivering = s.du.delivering) (applyDone : t.du.applyDone = s.du.applyDone) : LinkAgrees l t := by
  unfold LinkAgrees
  rw [links, delivering, applyDone]
  exact h

/-- A delivery that ends with a link's queue empty leaves it agreeing, whatever is being sent but an APPLY (R123). -/
theorem endDelivery_agrees {m : Link} (empty : (s.links.get m).patternQ = []) {sends : Prop} (quiet : ¬sends) :
    QueueAgrees (endDelivery s).du.delivering ((endDelivery s).du.applyDone.get m)
      ((endDelivery s).links.get m).patternQ sends
    ∧ (SendsApply ((endDelivery s).links.get m).tx ↔ SendsApply (s.links.get m).tx) := by
  cases waits : s.du.waiting
  case none =>
    rw [endDelivery_empties waits]
    exact ⟨⟨empty, quiet⟩, Iff.rfl⟩
  case some g =>
    rw [endDelivery_starts waits]
    refine startDelivery_agrees g ?_ quiet
    exact empty

/-- With nothing queued and no APPLY being sent, the end of a delivery leaves the link agreeing (R123). -/
theorem endDelivery_linkAgrees {m : Link} (empty : (s.links.get m).patternQ = [])
    (quiet : ¬SendsApply (s.links.get m).tx) : LinkAgrees m (endDelivery s) := by
  obtain ⟨agrees, sends⟩ := endDelivery_agrees empty quiet
  unfold LinkAgrees
  rw [propext sends]
  exact agrees

/-- In phase BLOCKS, dropping the generation's blocks empties the queue (R130). -/
theorem filter_blocksOf {gen : Byte} {fs : List PatternFrame} (blocks : BlocksOf gen fs) :
    fs.filter (fun f => !isBlockOf gen f) = [] := by
  refine List.filter_eq_nil_iff.mpr fun f member => ?_
  obtain ⟨k, levels, rfl⟩ := blocks.2 f member
  simp [isBlockOf]

/-- A generation abandoned in phase BLOCKS leaves the links agreeing (R130). -/
theorem abandon_agrees {g : GenRecord} {m : Link} (h : LinkAgrees m s) (phase : s.du.delivering = some (g, .blocks)) :
    LinkAgrees m (abandon g s) := by
  have charged := LinksFollow.after_charges s
  have agrees := charged.keeps_agrees h
  unfold LinkAgrees QueueAgrees at agrees
  rw [charged.delivering, phase] at agrees
  obtain ⟨_, blocks, quiet⟩ := agrees
  unfold abandon
  dsimp only
  generalize s.du.ackSet.foldl (fun s m => chargeMiss m.1 m.2 s) s = u at blocks quiet
  obtain ⟨queue, tx, _⟩ := dropBlocks_link g.number .right m (dropBlocks g.number .left u)
  obtain ⟨queue', tx', _⟩ := dropBlocks_link g.number .left m u
  have none_left := filter_blocksOf blocks
  refine endDelivery_linkAgrees (s := countDelivery Stat.duAbandonedTimeout (sendEvent .applyAbandoned _)) ?_ ?_
  · show ((dropBlocks g.number .right (dropBlocks g.number .left u)).links.get m).patternQ = []
    rw [queue, queue']
    cases m
    · exact none_left
    · exact none_left
  · show ¬SendsApply ((dropBlocks g.number .right (dropBlocks g.number .left u)).links.get m).tx
    rw [tx, tx']
    exact quiet

/-- A member that leaves the ack set in phase BLOCKS leaves the links agreeing (R126 to R128). -/
theorem leaveAckSet_agrees {g : GenRecord} {m : Link} (h : LinkAgrees m s)
    (phase : s.du.delivering = some (g, .blocks)) (l : Link) (k : Slot) : LinkAgrees m (leaveAckSet g l k s) := by
  unfold leaveAckSet
  dsimp only
  split
  · refine applyNow_agrees ?_ phase
    exact h.congr rfl rfl rfl
  · exact h.congr rfl rfl rfl

/-- An event of DU keeps the links agreeing (R123 to R130). -/
theorem DeliveryEvent.keeps_agrees (sound : DeliverySound s) {m : Link} (h : LinkAgrees m s) (e : DeliveryEvent s t) :
    LinkAgrees m t := by
  have same {u : State} (links : u.links = s.links) (delivering : u.du.delivering = s.du.delivering)
      (applyDone : u.du.applyDone = s.du.applyDone) : LinkAgrees m u := h.congr links delivering applyDone
  cases e
  case record g rest _ =>
    unfold takeRecord
    split
    case h_1 idle =>
      have idle : s.du.delivering = none := idle
      have agrees := h
      unfold LinkAgrees QueueAgrees at agrees
      rw [idle] at agrees
      obtain ⟨empty, quiet⟩ := agrees
      obtain ⟨agrees, sends⟩ := startDelivery_agrees g (s := { s with mail := { s.mail with records := rest } }) empty quiet
      unfold LinkAgrees
      rw [propext sends]
      exact agrees
    all_goals exact same rfl rfl rfl
  case ack a =>
    unfold takeAck
    split
    case h_1 => exact same rfl rfl rfl
    case h_2 g ph delivering =>
      split
      · exact same rfl rfl rfl
      · split
        case isTrue member =>
          obtain rfl := sound.phase_of_mem delivering (by simpa using member)
          refine leaveAckSet_agrees (s := countDelivery Stat.duAcks _) ?_ delivering _ _
          exact same rfl rfl rfl
        case isFalse => exact same rfl rfl rfl
  case broken =>
    unfold takeBroken
    split
    case h_1 delivering =>
      split
      · refine leaveAckSet_agrees (s := countDelivery Stat.duBrokenDrops _) ?_ delivering _ _
        exact same rfl rfl rfl
      · exact same rfl rfl rfl
    all_goals exact same rfl rfl rfl
  case timeout expired =>
    unfold expireApply
    split
    case h_1 g ph delivering =>
      cases ph
      case blocks => exact abandon_agrees h delivering
      case applying =>
        obtain ⟨_, agrees⟩ := sound
        simp only [delivering] at agrees
        obtain ⟨_, stopped⟩ := agrees
        rw [stopped] at expired
        cases expired
    case h_2 => exact same rfl rfl rfl

/-- The grant after a completed transmission: the link it ends on agrees with no APPLY being sent, the other as it
stands (R115). -/
theorem grantNext_agrees {l m : Link}
    (here : QueueAgrees s.du.delivering (s.du.applyDone.get l) (s.links.get l).patternQ False)
    (there : m ≠ l → LinkAgrees m s) : LinkAgrees m (grantNext l s) := by
  unfold LinkAgrees grantNext
  by_cases same : m = l
  · subst same
    rw [updLink_links, Both.get_set_same]
    exact here.sendOrPark _ _ _
  · rw [updLink_links, Both.get_set_other _ _ same]
    exact there same

/-- An APPLY's completion: its link has none to send; once both have sent theirs, the delivery ends (R129). -/
theorem applySent_agrees {l : Link} (h : ∀ m, LinkAgrees m s) {gen : Byte} {q : BitVec 4}
    (sending : (s.links.get l).tx = .sending (.pattern (.apply gen)) q) (m : Link) :
    LinkAgrees m (grantNext l (applyTransmitted l s)) := by
  have sends : SendsApply (s.links.get l).tx := ⟨gen, q, sending⟩
  have agrees := h l
  unfold LinkAgrees QueueAgrees at agrees
  split at agrees
  case h_1 => exact absurd sends agrees.2
  case h_2 => exact absurd sends agrees.2.2
  case h_3 g delivering =>
    obtain ⟨_, quiet, _⟩ | ⟨_, _, empty⟩ | ⟨_, quiet, _⟩ := agrees
    · exact absurd sends quiet
    · have others (n : Link) (other : n ≠ l) : (s.du.applyDone.set l true).get n = s.du.applyDone.get n :=
        Both.get_set_other _ _ other
      unfold applyTransmitted
      dsimp only
      rw [delivering]
      dsimp only
      split
      case isTrue both =>
        have ended := endDelivery_agrees (m := l) (s := cmApplied g.mode { s with du := { s.du with
          applyDone := s.du.applyDone.set l true, applied := some (g.number, g.mode)
          stats := bumpAt Stat.duApplied s.du.stats } }) empty not_false
        refine grantNext_agrees ended.1 fun other => ?_
        have done : s.du.applyDone.get m = true := by
          rw [← others m other]
          rw [Bool.and_eq_true] at both
          cases m
          · exact both.1
          · exact both.2
        have there := h m
        unfold LinkAgrees QueueAgrees at there
        rw [delivering, done] at there
        obtain ⟨undone, _⟩ | ⟨undone, _⟩ | ⟨_, quiet, noneQueued⟩ := there
        · cases undone
        · cases undone
        · exact endDelivery_linkAgrees noneQueued quiet
      case isFalse =>
        refine grantNext_agrees ?_ fun other => ?_
        · dsimp only
          rw [Both.get_set_same]
          exact .inr (.inr ⟨rfl, not_false, empty⟩)
        · have there := h m
          unfold LinkAgrees at there ⊢
          rw [delivering] at there
          dsimp only
          rw [others m other]
          exact there
    · exact absurd sends quiet

/-- After a reset nothing is queued, delivered or being sent (R122, R133). -/
theorem patternSound_ofReset (links : s.links = linksReset s.mu.tables) (du : s.du = duReset) : PatternSound s := by
  refine .ofLinks fun l => ?_
  have slc : (slcReset s.mu.tables l).patternQ = [] ∧ ¬SendsApply (slcReset s.mu.tables l).tx := by
    refine ⟨rfl, ?_⟩
    unfold slcReset
    dsimp only
    split <;> (rintro ⟨_, _, sends⟩; cases sends)
  have quiet : (s.links.get l).patternQ = [] ∧ ¬SendsApply (s.links.get l).tx := by
    rw [links]
    cases l <;> exact slc
  unfold LinkAgrees
  rw [du]
  exact quiet

/-- Every event keeps the Pattern queues sound, given a sound delivery (R113, R124, R128 to R130). -/
theorem Event.keeps_patterns (delivery : DeliverySound s) (h : PatternSound s) (e : Event s t) : PatternSound t := by
  have ofFollow {u : State} (awake : s.inReset = false) (follows : LinksFollow s u) : PatternSound u :=
    .ofLinks fun l => follows.keeps_agrees (h.link awake l)
  cases e
  case unmoved | linesMove => exact h
  case reset | restart => exact patternSound_ofReset rfl rfl
  case resetAsserted =>
    refine ⟨fun l => ?_, .inl rfl⟩
    cases l
    · exact h.1 .left
    · exact h.1 .right
  case vehicle awake e => exact ofFollow awake ((LinksFollow.refl s).after_triggers e.triggers)
  case scene awake e => exact ofFollow awake ((LinksFollow.refl s).after_triggers e.triggers)
  case track awake e => exact ofFollow awake ((LinksFollow.refl s).after_triggers e.triggers)
  case build awake e => exact ofFollow awake e.follows
  case delivery awake e => exact .ofLinks fun l => e.keeps_agrees delivery (h.link awake l)
  case link l awake e =>
    rcases e.follows with follows | ⟨_, _, sending, rfl⟩
    · exact ofFollow awake follows
    · exact .ofLinks (applySent_agrees (h.link awake) sending)
  case condition awake e => exact ofFollow awake ((LinksFollow.refl s).after_triggers e.triggers)
  case port awake e => exact ofFollow awake e.follows
  case request u f rest takes effect _ _ _ =>
    have carried := ofFollow takes.1 (((LinksFollow.refl s).congr (u := afterTaking rest s) rfl rfl).trans effect.follows)
    exact carried

end Pattern

end Sys2Proof.Machine

/-! The queues, the configuration, the port and the notices under every event (section 9.5; R61, R64, R146, R147, R151 to
R154, R175). -/

namespace Sys2Proof.Machine

/-! ## The scene buffer (R27) -/

section Buffer

variable {s t : State}

/-- The buffer of SA is as it was, or empty. -/
def BufferStays (s t : State) : Prop := t.sa.buffer = s.sa.buffer ∨ t.sa.buffer = []

/-- It stays within its capacity then. -/
theorem BufferStays.bounded (h : BufferStays s t) (ok : s.sa.buffer.length ≤ bufferCapacity) :
    t.sa.buffer.length ≤ bufferCapacity := by
  rcases h with same | empty
  · rw [same]; exact ok
  · rw [empty]; exact Nat.zero_le _

/-- A tear (R30). -/
theorem tearScene_buffer (s : State) : BufferStays s (tearScene s) := by
  unfold tearScene
  split
  · exact .inl rfl
  · exact .inr rfl

/-- A count check (R28). -/
theorem countCheck_buffer (announced : Nat) (s : State) : BufferStays s (countCheck announced s) := by
  unfold countCheck
  split
  · exact .inl rfl
  · split
    · refine .inr ?_
      simp only [completeScene, clearStale]
      split <;> rfl
    · exact tearScene_buffer s

/-- One report taken (R27). -/
theorem takeReport_bounded (sa : Sa) (r : Option Report) (h : sa.buffer.length ≤ bufferCapacity) :
    (takeReport sa r).buffer.length ≤ bufferCapacity := by
  unfold takeReport
  split
  case h_1 | h_2 => exact h
  case h_3 =>
    split
    · exact h
    · split
      case isTrue room => rw [List.length_append]; exact room
      case isFalse => exact h

/-- A frame's reports taken (R22, R27). -/
theorem takeReports_bounded (f : ObjectFrame) (h : s.sa.buffer.length ≤ bufferCapacity) :
    (takeReports f s).sa.buffer.length ≤ bufferCapacity := by
  have taken : (f.reports.foldl takeReport s.sa).buffer.length ≤ bufferCapacity :=
    List.foldlRecOn (motive := fun sa : Sa => sa.buffer.length ≤ bufferCapacity) f.reports takeReport h
      fun sa ok r _ => takeReport_bounded sa r ok
  unfold takeReports
  dsimp only
  split
  · refine (countCheck_buffer _ _).bounded ?_
    exact taken
  · exact taken

/-- An event of SA keeps the buffer within its capacity. -/
theorem SceneEvent.keeps_bounded (h : s.sa.buffer.length ≤ bufferCapacity) (e : SceneEvent s t) :
    t.sa.buffer.length ≤ bufferCapacity := by
  cases e
  case frame =>
    unfold takeObjectFrame
    split
    case h_1 => exact h
    case h_2 =>
      dsimp only
      split
      case h_1 => refine (tearScene_buffer _).bounded ?_; exact h
      case h_2 o _ =>
        unfold placeFrame
        split
        case isTrue => exact takeReports_bounded o (Nat.zero_le _)
        case isFalse =>
          split
          · exact h
          · split
            · refine takeReports_bounded o ?_
              exact h
            · refine (tearScene_buffer _).bounded ?_
              exact h
  case timeout => exact h
  case tear => refine (tearScene_buffer _).bounded ?_; exact h

end Buffer

/-! ## All queues -/

/-- What the statement asks of a state. -/
theorem queuesBounded_iff (s : State) :
    QueuesBounded s ↔ UpBounded s.up ∧ PassBounded s ∧ s.sa.buffer.length ≤ bufferCapacity := by
  constructor
  · rintro ⟨object, vehicle, mgmt, replies, passUps, left, right, buffer⟩
    refine ⟨⟨object, vehicle, mgmt, replies, passUps⟩, fun l => ?_, buffer⟩
    cases l
    · exact left
    · exact right
  · rintro ⟨⟨object, vehicle, mgmt, replies, passUps⟩, pass, buffer⟩
    exact ⟨object, vehicle, mgmt, replies, passUps, pass .left, pass .right, buffer⟩

section Queues

variable {s t : State}

/-- A reply placed where MU found room for it (R165). -/
theorem answered_quiet (f : UpFrame) (status : Status) (data : List Byte) (restart : Bool) (s : State) :
    ∃ item, UpQuiet { s.up with replyQ := s.up.replyQ ++ [item] } (answered f status data restart s).up :=
  ⟨_, upStartUp_quiet _ _⟩

/-- Carrying out a request places no reply. -/
theorem CommandEffect.keeps_replies (e : CommandEffect s t) : t.up.replyQ.length ≤ s.up.replyQ.length := by
  have noticed (u : State) : (placeNotice u).up.replyQ.length ≤ u.up.replyQ.length := by
    have chosen (v : Up) : (upStartUp u.mu.strap v).replyQ.length ≤ v.replyQ.length := by
      unfold upStartUp upChoose
      split
      · split
        case h_2 queue => rw [queue]; exact Nat.le_succ _
        case h_3 => split <;> exact Nat.le_refl _
        all_goals exact Nat.le_refl _
      · exact Nat.le_refl _
    exact chosen _
  cases e
  case clearStatistics g _ _ => cases g <;> exact Nat.le_refl _
  case clearNotice numbers =>
    unfold clearNotices
    dsimp only
    split
    · exact noticed _
    · exact Nat.le_refl _
  case recoverCondition =>
    exact settle_preserves (P := fun t => t.up.replyQ.length ≤ s.up.replyQ.length) (fun _ => Nat.le_refl _)
      (fun _ ok => by simpa using ok) fun u ok => (noticed u).trans ok
  case exitConfig => simp [Machine.exitConfig]
  all_goals simp

/-- After a reset every queue is empty (R34, R122, R163). -/
theorem queuesBounded_ofReset (sa : s.sa = saReset) (up : s.up = upReset) (links : s.links = linksReset s.mu.tables) :
    QueuesBounded s := by
  unfold QueuesBounded
  rw [sa, up, links]
  exact ⟨Nat.zero_le _, Nat.zero_le _, Nat.zero_le _, Nat.zero_le _, Nat.zero_le _, Nat.zero_le _, Nat.zero_le _,
    Nat.zero_le _⟩

/-- Every event keeps the queues within their capacities (section 9.5, R114, R27). -/
theorem Event.keeps_queues (h : QueuesBounded s) (e : Event s t) : QueuesBounded t := by
  rw [queuesBounded_iff] at h ⊢
  obtain ⟨up, pass, buffer⟩ := h
  have triggered {u : State} (triggers : Triggers SameCore s u) : PassBounded u :=
    ((LinksFollow.refl s).after_triggers triggers).keeps_pass pass
  cases e
  case unmoved | linesMove => exact ⟨up, pass, buffer⟩
  case reset | restart => exact (queuesBounded_iff _).mp (queuesBounded_ofReset rfl rfl rfl)
  case resetAsserted =>
    refine ⟨up, fun l => ?_, buffer⟩
    cases l
    · exact pass .left
    · exact pass .right
  case vehicle e =>
    obtain ⟨sa, _⟩ := e.keeps
    exact ⟨e.up_quiet.bounded up, triggered e.triggers, sa ▸ buffer⟩
  case scene e => exact ⟨e.up_quiet.bounded up, triggered e.triggers, e.keeps_bounded buffer⟩
  case track e =>
    obtain ⟨_, _, _, sameUp, sameBuffer, _⟩ := e.keeps
    exact ⟨sameUp ▸ up, triggered e.triggers, sameBuffer ▸ buffer⟩
  case build e =>
    obtain ⟨_, sa, _, _, _, sameUp, _⟩ := e.keeps
    exact ⟨sameUp ▸ up, e.follows.keeps_pass pass, sa ▸ buffer⟩
  case delivery e =>
    obtain ⟨_, sa, _, _, _, sameUp, _⟩ := e.keeps
    exact ⟨sameUp ▸ up, e.keeps_pass pass, sa ▸ buffer⟩
  case link e =>
    obtain ⟨_, sa, _⟩ := e.keeps
    exact ⟨e.up_quiet.bounded up, e.keeps_pass pass, sa ▸ buffer⟩
  case condition e =>
    obtain ⟨_, sa, _⟩ := e.keeps
    exact ⟨e.up_quiet.bounded up, triggered e.triggers, sa ▸ buffer⟩
  case port e =>
    obtain ⟨_, sa, _⟩ := e.keeps
    exact ⟨e.keeps_bounded up, e.follows.keeps_pass pass, sa ▸ buffer⟩
  case request u f rest takes effect status data restart =>
    obtain ⟨_, waits, room, _⟩ := takes
    have taken : UpBounded (afterTaking rest s).up := by
      obtain ⟨object, vehicle, mgmt, replies, passUps⟩ := up
      rw [waits, List.length_cons] at mgmt
      exact ⟨object, vehicle, Nat.le_of_succ_le mgmt, replies, passUps⟩
    have carried : PassBounded u := effect.follows.keeps_pass (s := afterTaking rest s) pass
    obtain ⟨item, quiet⟩ := answered_quiet f status data restart u
    obtain ⟨sameBuffer, _⟩ := effect.keeps_tracks
    refine ⟨quiet.bounded ?_, carried, ?_⟩
    · obtain ⟨object, vehicle, mgmt, _, passUps⟩ := effect.up_quiet.bounded taken
      refine ⟨object, vehicle, mgmt, ?_, passUps⟩
      rw [List.length_append]
      exact Nat.lt_of_le_of_lt effect.keeps_replies room
    · show u.sa.buffer.length ≤ bufferCapacity
      rw [sameBuffer]
      exact buffer

/-! ## The port -/

/-- After a reset the port is NORMAL with a score of 0 (R163). -/
theorem portOk_reset : PortOk upReset := ⟨fun _ => by decide, nofun, nofun, nofun, nofun⟩

/-- Every event keeps the port sound (R151 to R154). -/
theorem Event.keeps_port (h : PortSound s) (e : Event s t) : PortSound t := by
  rw [portSound_iff] at h ⊢
  cases e
  case unmoved | linesMove => exact h
  case reset | restart => exact portOk_reset
  case resetAsserted =>
    obtain ⟨normal, warned, detached, timer⟩ := h
    refine ⟨normal, warned, fun isDetached => ?_, timer⟩
    obtain ⟨least, most, _⟩ := detached isDetached
    exact ⟨least, most, rfl⟩
  case vehicle e => exact e.up_quiet.keeps_port h
  case scene e => exact e.up_quiet.keeps_port h
  case track e => obtain ⟨_, _, _, up, _⟩ := e.keeps; exact up ▸ h
  case build e => obtain ⟨_, _, _, _, _, up, _⟩ := e.keeps; exact up ▸ h
  case delivery e => obtain ⟨_, _, _, _, _, up, _⟩ := e.keeps; exact up ▸ h
  case link e => exact e.up_quiet.keeps_port h
  case condition e => exact e.up_quiet.keeps_port h
  case port e => exact e.keeps_port h
  case request u f rest takes effect status data restart =>
    obtain ⟨item, quiet⟩ := answered_quiet f status data restart u
    refine quiet.keeps_port ?_
    have carried : PortOk u.up := effect.up_quiet.keeps_port (u := (afterTaking rest s).up) h
    exact carried

end Queues

/-! ## The configuration and the staging area (R61, R64, R175) -/

/-- In CONFIG nothing is staged and no commit is pending. -/
def StagedOk (mu : Mu) : Prop := mu.config = .config → mu.staged = emptyStaging ∧ mu.commitPending = false

/-- And a commit is pending only where a trigger took or merged it. -/
def ConfigOk (s : State) : Prop :=
  StagedOk s.mu ∧ (s.mu.commitPending = true → s.pb.build ≠ none ∧ s.pb.rebuild = true)

section Configuration

variable {s t : State}

/-- While RESETN does not hold the part, that is what the statement asks of a state. -/
theorem configSound_iff (awake : s.inReset = false) : ConfigSound s ↔ ConfigOk s := by
  simp [ConfigSound, ConfigOk, StagedOk, awake]

/-- It is sound in reset, too. -/
theorem ConfigOk.sound (h : ConfigOk s) : ConfigSound s := ⟨h.1, fun pending => .inr (h.2 pending)⟩

/-- The same tables. -/
theorem ConfigOk.congr (h : ConfigOk s) (same : SameTables s t) : ConfigOk t := by
  unfold ConfigOk
  rw [same.mu, same.build, same.rebuild]
  exact h

/-- The same commit and the same build. -/
theorem ConfigOk.ofSame (h : ConfigOk s) (config : t.mu.config = s.mu.config) (staged : t.mu.staged = s.mu.staged)
    (commitPending : t.mu.commitPending = s.mu.commitPending) (build : t.pb.build = s.pb.build)
    (rebuild : t.pb.rebuild = s.pb.rebuild) : ConfigOk t := by
  unfold ConfigOk StagedOk
  rw [config, staged, commitPending, build, rebuild]
  exact h

/-- The start of a build leaves no commit pending (R64). -/
theorem buildStart_config (h : StagedOk s.mu) : ConfigOk (buildStart s) := by
  unfold ConfigOk
  rw [buildStart_mu]
  cases pending : s.mu.commitPending
  case true =>
    rw [afterCommit_pending pending]
    exact ⟨fun _ => ⟨rfl, rfl⟩, nofun⟩
  case false =>
    rw [afterCommit_none pending]
    exact ⟨h, fun taken => by rw [pending] at taken; cases taken⟩

/-- A build trigger takes a commit, or merges for it (R61). -/
theorem trigger_config (h : StagedOk s.mu) : ConfigOk (trigger s) := by
  unfold trigger
  split
  case h_1 => exact buildStart_config h
  case h_2 b building => exact ⟨h, fun _ => ⟨by simp [building], rfl⟩⟩

/-- Build triggers alone. -/
theorem ConfigOk.ofTriggers (h : ConfigOk s) (triggers : Triggers SameTables s t) : ConfigOk t :=
  triggers.keeps (fun _ _ same ok => ok.congr same) (fun _ ok => trigger_config ok.1) h

/-- An event of PB (R63, R66). -/
theorem BuildEvent.keeps_config (h : ConfigOk s) (e : BuildEvent s t) : ConfigOk t := by
  cases e
  case refresh => exact trigger_config (s := { s with pb := _ }) h.1
  case completion b inFlight =>
    unfold completeBuild
    dsimp only
    split
    case isTrue => exact buildStart_config (s := { s with pb := _, mail := _ }) h.1
    case isFalse alone =>
      refine ⟨h.1, fun pending => ?_⟩
      obtain ⟨_, rebuild⟩ := h.2 pending
      exact absurd rebuild alone

/-- A request carried out (R171, R173, R175, R176). -/
theorem CommandEffect.keeps_config (h : ConfigOk s) (e : CommandEffect s t) : ConfigOk t := by
  have inRun {mu : Mu} (run : mu.config = .run) : StagedOk mu := fun config => by rw [run] at config; cases config
  cases e
  case clearStatistics g _ _ => cases g <;> exact h
  case loadLive => exact h.ofSame (by simp) (by simp) (by simp) (by simp) (by simp)
  case loadStaged run free written =>
    exact ⟨inRun run, fun pending => by simp [free] at pending⟩
  case commit run => exact trigger_config (s := countManagement _ _) (inRun run)
  case rejectCommit free | discard free =>
    exact ⟨fun _ => ⟨rfl, free⟩, fun pending => absurd (free.symm.trans pending) Bool.false_ne_true⟩
  case enterConfig =>
    refine trigger_config ?_
    exact fun _ => ⟨rfl, rfl⟩
  case exitConfig =>
    refine trigger_config (inRun ?_)
    simp
  case setHold value =>
    unfold setHoldLow
    split
    · exact h
    · refine trigger_config ?_
      exact h.1
  case clearNotice numbers =>
    unfold clearNotices
    dsimp only
    split <;> exact h
  case recoverCondition =>
    exact h.ofTriggers (Triggers.none.after_settle.mono fun _ _ => SameCore.toSameTables)
  all_goals exact h.ofSame (by simp) (by simp) (by simp) (by simp) (by simp)

/-- Every event keeps the configuration sound (R61, R64, R175). -/
theorem Event.keeps_config (h : ConfigSound s) (e : Event s t) : ConfigSound t := by
  have core {u : State} (awake : s.inReset = false) (triggers : Triggers SameCore s u) : ConfigSound u :=
    (((configSound_iff awake).mp h).ofTriggers (triggers.mono fun _ _ => SameCore.toSameTables)).sound
  have tables {u : State} (awake : s.inReset = false) (triggers : Triggers SameTables s u) : ConfigSound u :=
    (((configSound_iff awake).mp h).ofTriggers triggers).sound
  cases e
  case unmoved | linesMove => exact h
  case reset | restart => exact ⟨nofun, nofun⟩
  case resetAsserted => exact ⟨h.1, fun _ => .inl rfl⟩
  case vehicle awake e => exact core awake e.triggers
  case scene awake e => exact core awake e.triggers
  case track awake e => exact core awake e.triggers
  case build awake e => exact (e.keeps_config ((configSound_iff awake).mp h)).sound
  case delivery awake e => exact tables awake (.same .none e.sameTables)
  case link awake e => exact tables awake e.triggers
  case condition awake e => exact core awake e.triggers
  case port awake e => exact tables awake e.triggers
  case request u f rest takes effect _ _ _ =>
    have before : ConfigOk (afterTaking rest s) := (configSound_iff takes.1).mp h
    have carried : ConfigOk u := effect.keeps_config before
    exact ConfigOk.sound (carried.ofSame rfl rfl rfl rfl rfl)

end Configuration

/-! ## The notices (R146, R147) -/

section Notices

variable {s t : State}

/-- Notices are a matter of the Notice slot, the latched report set and whether one is outstanding. -/
theorem NoticesSound.congr (h : NoticesSound s) (latched : t.cm.latched = s.cm.latched)
    (outstanding : t.cm.outstanding = s.cm.outstanding)
    (notice : t.up.notice.isSome = true → s.up.notice.isSome = true) : NoticesSound t := by
  obtain ⟨same, waits⟩ := h
  unfold NoticesSound
  rw [latched, outstanding]
  exact ⟨same, waits ∘ notice⟩

/-- The transmitter takes a NOTICE and places none (R161). -/
theorem upStartUp_notice_fewer (strap : Fin 4) (u : Up) (h : (upStartUp strap u).notice.isSome = true) :
    u.notice.isSome = true := by
  unfold upStartUp upChoose at h
  split at h
  · split at h
    case h_3 => split at h <;> cases h
    all_goals exact h
  · exact h

/-- The transmitter started (R161). -/
theorem NoticesSound.upStart (h : NoticesSound s) : NoticesSound (upStart s) :=
  h.congr rfl rfl (upStartUp_notice_fewer _ _)

/-- A NOTICE placed while the latched report set holds a condition (R146). -/
theorem placeNotice_sound (latched : anyLatched s.cm.latched = true) : NoticesSound (placeNotice s) :=
  NoticesSound.upStart (s := { s with up := _, cm := _ }) ⟨latched.symm, fun _ => rfl⟩

/-- A move settled, up to its NOTICE: the latched report set may have grown, and UP is as it was (R143, R145). -/
theorem settle_latches (c : Cond) (m : Moved) (s : State) : ∃ joining u,
    settle c m s = (if joining && !s.cm.outstanding then placeNotice u else u)
      ∧ u.cm.latched = (if joining then s.cm.latched.set (condNo c) true else s.cm.latched)
      ∧ u.cm.outstanding = s.cm.outstanding ∧ u.up = s.up := by
  have kept (p : Prop) [Decidable p] (v : State) :
      (if p then v else trigger v).cm = v.cm ∧ (if p then v else trigger v).up = v.up := by
    split <;> simp
  refine ⟨_, _, settle_eq c m s, ?_, ?_, ?_⟩
  · rw [(kept _ _).1]
  · rw [(kept _ _).1]
  · rw [(kept _ _).2]

/-- A move settled: a condition that joins leaves a NOTICE outstanding (R145, R146). -/
theorem NoticesSound.settle (h : NoticesSound s) (c : Cond) (m : Moved) : NoticesSound (settle c m s) := by
  obtain ⟨joining, u, settled, latched, outstanding, up⟩ := settle_latches c m s
  rw [settled]
  cases joining
  case false => exact h.congr latched outstanding fun waits => up ▸ waits
  case true =>
    rw [if_pos rfl] at latched
    have joined : anyLatched u.cm.latched = true :=
      (anyLatched_iff _).mpr ⟨condNo c, by rw [latched, Row.get_set_same]⟩
    cases was : s.cm.outstanding
    case false => exact placeNotice_sound joined
    case true =>
      rw [was] at outstanding
      exact ⟨outstanding.trans joined.symm, fun _ => outstanding⟩

/-- A raw report taken at once (assumption 28). -/
theorem NoticesSound.takeReportNow (h : NoticesSound s) (x : LevelReport) : NoticesSound (takeReportNow x s) :=
  takeReportNow_preserves (P := NoticesSound) (fun _ _ ok => ok) (fun _ _ ok => ok) (fun c m _ ok => ok.settle c m) x h

/-- An event of CM (R145, R146). -/
theorem ConditionEvent.keeps_notices (h : NoticesSound s) (e : ConditionEvent s t) : NoticesSound t :=
  e.preserves (P := NoticesSound) (fun _ _ ok => ok) (fun _ _ ok => ok) (fun c m _ ok => ok.settle c m)
    (fun u ok => by
      unfold reworkAction
      dsimp only
      split
      · exact ok
      · exact ok.congr (by simp) (by simp) (by simp)) h

/-- A score changed: a NOTICE in hand comes back only while one is outstanding (R153). -/
theorem NoticesSound.setScore (h : NoticesSound s) (n : Nat) : NoticesSound (setScore n s) := by
  unfold Machine.setScore
  dsimp only
  split
  case h_1 => exact h
  case h_2 => split <;> exact h
  case h_3 =>
    split
    · exact h
    · unfold detach
      dsimp only
      generalize entered : ({ s with up := _ } : State) = u
      have before : NoticesSound u := entered ▸ h
      obtain ⟨same, waits⟩ := before.takeReportNow ⟨.linkDetached, none, true⟩
      obtain ⟨_, notice, cut, returned⟩ := cutInHand_spec (Machine.takeReportNow ⟨.linkDetached, none, true⟩ u).cm.outstanding
        (Machine.takeReportNow ⟨.linkDetached, none, true⟩ u).up
      rw [cut]
      exact ⟨same, fun some => (returned some).elim waits id⟩

/-- A PASS_UP offered (R160). -/
theorem NoticesSound.offerPassUp (h : NoticesSound s) (f : PassFrame) : NoticesSound (offerPassUp f s) := by
  unfold Machine.offerPassUp
  split
  · exact NoticesSound.upStart (s := { s with up := _ }) h
  · exact h

/-- An event of a link. -/
theorem LinkEvent.keeps_notices {l : Link} (h : NoticesSound s) (e : LinkEvent l s t) : NoticesSound t := by
  cases e
  case frame bytes =>
    unfold receiveLink
    split
    case h_1 | h_2 => exact h
    case h_3 f _ =>
      split
      case isTrue => exact h
      case isFalse =>
        cases f
        case status => exact h.congr (by simp [takeModuleFrame]) (by simp [takeModuleFrame]) (by simp [takeModuleFrame])
        case blockAck => exact h
        case passUp =>
          refine NoticesSound.offerPassUp ?_ _
          exact h
  case replyTimeout => exact h.congr (by simp) (by simp) (by simp)
  case poll | wakeEnd => exact h
  case sent f _ _ =>
    have applied : NoticesSound (applyTransmitted l s) := by
      unfold applyTransmitted
      dsimp only
      split
      · split
        · exact h.congr (by simp [cmApplied]) (by simp [cmApplied]) (by simp [cmApplied])
        · exact h
      all_goals exact h
    have sent : NoticesSound (frameSent l f s) := by
      unfold frameSent
      split
      case h_2 => exact applied
      all_goals exact h.congr (by simp) (by simp) (by simp)
    exact sent

/-- An event of UP. -/
theorem PortEvent.keeps_notices (h : NoticesSound s) (e : PortEvent s t) : NoticesSound t := by
  cases e
  case frame bytes _ =>
    have scored (n : Nat) (i : Fin 19) : NoticesSound (setScore n (countPort i s)) :=
      NoticesSound.setScore (s := countPort i s) h n
    unfold receiveUpstream
    split
    case h_4 f _ =>
      have sorted (u : State) : (sortFrame f u).up.notice = u.up.notice := by
        unfold sortFrame offerManagement
        split
        · split <;> rfl
        · split
          case h_1 a _ =>
            cases a
            case object => simp only [placeByAction, offerObject]; split <;> rfl
            case vehicle => simp only [placeByAction, offerVehicle]; split <;> rfl
            all_goals simp [placeByAction, countPort]
          case h_2 => rfl
      exact (scored (s.up.score - 1) Stat.upRxGood).congr (by simp [receiveGood]) (by simp [receiveGood])
        fun waits => (sorted _) ▸ waits
    all_goals exact scored _ _
  case recovery => exact NoticesSound.upStart (s := { s with up := _, mail := _ }) h
  case sent => exact NoticesSound.upStart (s := { s with up := _ }) h

/-- A request carried out (R142, R147). -/
theorem CommandEffect.keeps_notices (h : NoticesSound s) (e : CommandEffect s t) : NoticesSound t := by
  cases e
  case clearStatistics g _ _ => cases g <;> exact h
  case clearNotice numbers =>
    unfold clearNotices
    dsimp only
    split
    case isTrue latched => exact placeNotice_sound (s := { s with cm := _ }) latched
    case isFalse none => exact ⟨(Bool.eq_false_iff.mpr none).symm, nofun⟩
  case recoverCondition c => exact h.settle c _
  case exitConfig => exact h.congr (by simp [Machine.exitConfig]) (by simp [Machine.exitConfig]) (by simp [Machine.exitConfig])
  all_goals exact h.congr (by simp) (by simp) (by simp)

/-- After a reset nothing is latched and no NOTICE waits (R149, R163). -/
theorem noticesSound_ofReset (cm : s.cm = cmReset) (up : s.up = upReset) : NoticesSound s := by
  have none : false = anyLatched cmReset.latched := by decide
  unfold NoticesSound
  rw [cm, up]
  exact ⟨none, nofun⟩

/-- Every event keeps the notices sound (R146, R147). -/
theorem Event.keeps_notices (h : NoticesSound s) (e : Event s t) : NoticesSound t := by
  have other {u : State} (cm : u.cm = s.cm) (up : u.up = s.up) : NoticesSound u :=
    h.congr (by rw [cm]) (by rw [cm]) fun waits => up ▸ waits
  cases e
  case unmoved | linesMove | resetAsserted => exact h
  case reset | restart => exact noticesSound_ofReset rfl rfl
  case vehicle e =>
    obtain ⟨_, _, _, cm, _⟩ := e.keeps
    obtain ⟨up, _⟩ := e.up_takes
    exact h.congr (by rw [cm]) (by rw [cm]) fun waits => by rw [up] at waits; exact waits
  case scene e =>
    obtain ⟨_, _, _, _, _, cm, _⟩ := e.keeps
    obtain ⟨up, _⟩ := e.up_takes
    exact h.congr (by rw [cm]) (by rw [cm]) fun waits => by rw [up] at waits; exact waits
  case track e => obtain ⟨_, _, cm, up, _⟩ := e.keeps; exact other cm up
  case build e => obtain ⟨_, _, _, _, cm, up, _⟩ := e.keeps; exact other cm up
  case delivery e => obtain ⟨_, _, _, _, cm, up, _⟩ := e.keeps; exact other cm up
  case link e => exact e.keeps_notices h
  case condition e => exact e.keeps_notices h
  case port e => exact e.keeps_notices h
  case request u f rest takes effect _ _ _ =>
    have carried : NoticesSound u := effect.keeps_notices (s := afterTaking rest s) h
    exact NoticesSound.upStart (s := { u with up := _, mu := _ }) carried

end Notices

/-- Settles O56: the five parts, each by the cases of what a step can do. -/
theorem queuesConfigurationPortAndNoticesStaySound : Obligations.QueuesConfigurationPortAndNoticesStaySound := by
  refine ⟨step_keeps (fun _ _ h => h) (fun _ _ h => h) fun _ _ h e => e.keeps_queues h,
    step_keeps (fun _ _ h => h) (fun _ _ h => h) fun _ _ h e => e.keeps_config h,
    step_keeps (fun _ _ h => h) (fun _ _ h => h) fun _ _ h e => e.keeps_port h,
    step_keeps (fun _ _ h => h) (fun _ _ h => h) fun _ _ h e => e.keeps_notices h, fun s t delivery h next => ?_⟩
  have both := step_keeps (P := fun s => DeliverySound s ∧ PatternSound s) (fun _ _ h => h) (fun _ _ h => h)
    (fun _ _ ⟨delivery, h⟩ e => ⟨e.keeps_delivery delivery, e.keeps_patterns delivery h⟩) s t ⟨delivery, h⟩ next
  exact both.2

end Sys2Proof.Machine

/-! Steps, resets and the Vehicle State Block, row by row (00, R2 to R18, R144, R177, R178). -/

namespace Sys2Proof.Machine

/-! ## Steps and the reset line -/

/-- Settles O1: by what a step is. -/
theorem stepTakesFrontCommand : Obligations.StepTakesFrontCommand := by
  refine ⟨fun c rest s front => ?_, fun s empty => ?_⟩
  · simp only [step, front]
  · simp only [step, empty]

/-- An event with an occasion is not taken while RESETN holds the part (assumption 18). -/
theorem running_held {s : State} (held : s.inReset = true) (f : State → State) : running s f = .next s := by
  simp [running, held]

/-- Settles O3: each row is gated by RESETN, but for the reset rows and the levels of the steering lines. -/
theorem nothingIsTakenWhileHeldInReset : Obligations.NothingIsTakenWhileHeldInReset := by
  intro c s held
  cases c
  case powerOn | resetPin | resetPinAsserted => trivial
  case steeringStep line =>
    cases line
    · exact running_held (s := flipLine .sta s) held _
    · exact running_held (s := flipLine .stb s) held _
  case phaseError => exact running_held (s := { s with sta := !s.sta, stb := !s.stb }) held _
  case sceneTake | buildCompletion | generationTake | blockAckTake | brokenNoticeTake | linkTxComplete | levelRawReport
      | conditionTableInForce | upstreamTxComplete =>
    simp only [exec, execSceneTake, execBuildCompletion, execGenerationTake, execBlockAckTake, execBrokenNoticeTake,
      execLinkTxComplete, execLevelRawReport, execConditionTableInForce, execUpstreamTxComplete, running_held held]
  all_goals exact running_held held _

/-! ## Resets (R144, R177, R178) -/

/-- Settles O5: the reset rows are resets from the built-in tables; RESETN low is `holdInReset`. -/
theorem powerOnAndResetPinLeaveTheResetState : Obligations.PowerOnAndResetPinLeaveTheResetState := by
  refine ⟨fun a b s => ⟨rfl, rfl⟩, ⟨rfl, rfl, rfl, rfl⟩, fun s => rfl⟩

/-- Settles O4: each part from what the blocks' reset values are. -/
theorem resetStateIsSound : Obligations.ResetStateIsSound := by
  have notConfig : StagedOk State.reset.mu := nofun
  have tables := (trackTable_sound_iff State.reset).mpr ⟨tableOk_fill, List.nodup_nil, fun x hx => absurd hx List.not_mem_nil⟩
  obtain ⟨keys, tracks⟩ := tables
  refine ⟨queuesBounded_ofReset rfl rfl rfl, noticesSound_ofReset rfl rfl, ⟨notConfig, nofun⟩, ⟨List.nodup_nil, rfl, rfl, rfl⟩,
    portOk_reset, .inr (linksReset_awake _), ?_, ?_, tracks, keys, fun _ => vsbReset_follows _ _,
    (linkRawsSound_iff _).mpr (fits_ofReset rfl), patternSound_ofReset rfl rfl⟩
  · refine (pinsSound_iff _).mpr ⟨vsbReset_pins (by decide) (by decide) (by decide) (by decide), ?_⟩
    have counts : 1 ≤ builtInVehicle.countsPerDegree ∧ builtInVehicle.countsPerDegree ≤ 64 := by decide
    exact ⟨counts, nofun⟩
  · exact (conditionsSound_iff _).mpr ⟨recordsSound_reset rfl, mailReset_levels _ _, nofun⟩

/-- The steering pin a reset with this one leaves: only the angle may be worked out again (R177). -/
theorem vsbReset_pin (p : VehicleParams) (pin : SteerPin) :
    (vsbReset p pin).pin.counter = pin.counter ∧ (vsbReset p pin).pin.reference = pin.reference
      ∧ (vsbReset p pin).pin.referenced = pin.referenced ∧ (vsbReset p pin).pin.phaseErrors = pin.phaseErrors := by
  unfold vsbReset
  dsimp only
  split <;> exact ⟨rfl, rfl, rfl, rfl⟩

/-- Modules just set up are neither BROKEN nor in their own fallback, and name no failed segment (R103, R112). -/
theorem linkRaws_setUp (t : Tables) (l : Link) (entries : Row 4 ModuleEntry) :
    (linkRaws t l (entries.map moduleSetUp)).broken = false
      ∧ (linkRaws t l (entries.map moduleSetUp)).selfFallback = false
      ∧ (linkRaws t l (entries.map moduleSetUp)).segFailed = false := by
  obtain ⟨broken, selfFallback, segFailed, _⟩ := linkRaws_iff t l (entries.map moduleSetUp)
  refine ⟨Bool.eq_false_iff.mpr fun holds => ?_, Bool.eq_false_iff.mpr fun holds => ?_, Bool.eq_false_iff.mpr fun holds => ?_⟩
  · obtain ⟨k, isBroken⟩ := broken.mp holds
    rw [Row.get_map] at isBroken
    simp only [effState_eq, moduleSetUp] at isBroken
    cases present : (entries.get k).present <;> simp [present] at isBroken
  · obtain ⟨k, _, isSelf⟩ := selfFallback.mp holds
    rw [Row.get_map] at isSelf
    cases isSelf
  · obtain ⟨k, n, _, _, failed, _⟩ := segFailed.mp holds
    rw [Row.get_map] at failed
    exact absurd failed List.not_mem_nil

/-- Settles O8: the reset of RESTART, read off field by field. -/
theorem restartKeepsTablesAndSteeringReference : Obligations.RestartKeepsTablesAndSteeringReference := by
  intro s f awake sends pending
  rw [exec_upstreamTxComplete_restart awake sends pending]
  have pin := vsbReset_pin s.mu.tables.vehicle s.vsb.pin
  obtain ⟨counter, reference, referenced, phaseErrors⟩ := pin
  refine ⟨_, rfl, rfl, rfl, rfl, rfl, counter, reference, referenced, phaseErrors, rfl, rfl, rfl, rfl, rfl, rfl, rfl, rfl, rfl,
    rfl, rfl, rfl, fun l k => ?_, rfl, rfl, rfl, rfl, rfl, rfl, rfl, rfl, rfl, rfl, ?_⟩
  · cases l <;> exact ⟨Row.get_map .., Row.get_map ..⟩
  · have reports (l : Link) : linkReports l (slcReset s.mu.tables l).sent
        = [⟨.moduleBroken, some l, false⟩, ⟨.moduleSelfFallback, some l, false⟩, ⟨.segmentFailed, some l, false⟩,
          ⟨.overtemp, some l, (slcReset s.mu.tables l).sent.overtemp⟩] := by
      obtain ⟨broken, selfFallback, segFailed⟩ := linkRaws_setUp s.mu.tables l (s.mu.tables.modules.get l)
      simp only [linkReports, slcReset, broken, selfFallback, segFailed]
    show vehicleReports (vsbReset s.mu.tables.vehicle s.vsb.pin).sent ++ [⟨.perceptionStale, none, false⟩]
      ++ linkReports .left (slcReset s.mu.tables .left).sent ++ linkReports .right (slcReset s.mu.tables .right).sent
      ++ [⟨.noModules, none, false⟩, ⟨.linkDetached, none, false⟩] = _
    rw [reports, reports]
    rfl

/-! ## Rounding (00, R6, R11) -/

/-- The quotient rounds to the nearest whole number. -/
theorem roundDiv_near (n d : Nat) (h : 0 < d) :
    2 * n + d < 2 * (d * ((2 * n + d) / (2 * d))) + 2 * d ∧ 2 * (d * ((2 * n + d) / (2 * d))) ≤ 2 * n + d := by
  have below := Nat.div_mul_le_self (2 * n + d) (2 * d)
  have above := Nat.lt_div_mul_add (a := 2 * n + d) (b := 2 * d) (by omega)
  have same : (2 * n + d) / (2 * d) * (2 * d) = 2 * (d * ((2 * n + d) / (2 * d))) := by ring
  omega

/-- A value that is not negative, rounded. -/
theorem roundDiv_natCast (n d : Nat) : roundDiv n d = ((2 * n + d) / (2 * d) : Nat) := by
  simp [roundDiv]

/-- Rounding is symmetric. -/
theorem roundDiv_neg (n d : Nat) : roundDiv (-n) d = -((2 * n + d) / (2 * d) : Nat) := by
  cases n
  case zero =>
    have less : d / (2 * d) = 0 := (Nat.div_eq_zero_iff).mpr (by omega)
    simp [roundDiv, less]
  case succ n => rw [roundDiv, if_neg (by omega), neg_neg, Int.toNat_natCast]

/-- Settles O10: the quotient is within half a divisor, and a tie is rounded away from 0. -/
theorem pinSpeedAndAngleRound : Obligations.PinSpeedAndAngleRound := by
  refine ⟨fun x d positive => ?_, fun period pulses slow => if_pos slow, fun period pulses quick _ _ => ?_,
    fun counter reference cpd => ?_⟩
  case refine_1 =>
    obtain ⟨n, rfl | rfl⟩ := Int.eq_nat_or_neg x
    · rw [roundDiv_natCast]
      have near := roundDiv_near n d positive
      rw [← Nat.cast_mul]
      generalize d * ((2 * n + d) / (2 * d)) = m at near
      simp only [abs_eq_max_neg]
      omega
    · rw [roundDiv_neg, mul_neg, ← Nat.cast_mul]
      have near := roundDiv_near n d positive
      generalize d * ((2 * n + d) / (2 * d)) = m at near
      simp only [abs_eq_max_neg]
      omega
  case refine_2 =>
    rw [pinSpeedOf, if_neg (Nat.not_lt.mpr quick)]
    have nonneg : 0 ≤ roundDiv 36000000000 (period * pulses) := by
      rw [show (36000000000 : Int) = (36000000000 : Nat) from rfl, roundDiv_natCast]
      exact Int.natCast_nonneg _
    omega
  case refine_3 => rw [pinAngleOf, clamp_eq (by decide)]

/-! ## The record fields (R14 to R16) -/

/-- Settles O17: by the source each table names. -/
theorem recordFieldsFollowTheSourceTables : Obligations.RecordFieldsFollowTheSourceTables := by
  intro p v
  refine ⟨fun source => ?_, fun source => ?_, fun source => ?_, fun source => ?_, fun source => ?_, fun source => ?_,
    fun now => ⟨?_, ?_⟩, fun α now i => ⟨fun never => ?_, fun t at_ => ?_⟩, fun unknown => ?_, fun a known => ?_⟩
  · simp only [selectSpeed, source, frameField]
  · simp only [selectSpeed, source, pinField]
  · cases fresh : v.speedIn.fresh <;> simp [selectSpeed, source, fresh, frameField, pinField]
  · simp only [selectSteer, source, frameField]
  · simp only [selectSteer, source, pinField]
  · cases fresh : v.steerIn.fresh <;> cases referenced : v.pin.referenced <;>
      simp [selectSteer, source, fresh, referenced, frameField, pinField]
  · cases source : (selectSpeed p v).source <;> simp [fieldAge, source]
  · cases source : (selectSteer p v).source <;> simp [fieldAge, source]
  · simp only [ageOf, never]
  · simp only [ageOf, at_]
  · simp only [disagreeRaw, unknown]
  · simp only [disagreeRaw, known, Bool.and_eq_true, decide_eq_true_eq, and_assoc]

/-! ## Events (section 1.5) -/

/-- Settles O15: each field's input is marked stale, and what follows its change. -/
theorem stalenessExpiryOfEachField : Obligations.StalenessExpiryOfEachField := by
  intro s awake
  refine ⟨fun expired => ?_, fun expired => ?_, fun expired => whenever_holds awake expired _, fun expired => ?_,
    fun expired => whenever_holds awake expired _, fun expired => whenever_holds awake expired _⟩
  · rw [← speedChanged_eq]
    exact whenever_holds awake expired _
  · rw [← steerChanged_eq]
    exact whenever_holds awake expired _
  · refine (whenever_holds awake expired _).trans ?_
    exact congrArg (fun u => Host.Outcome.next (trigger u)) (reportStale_eq _)

/-- Settles O16: the Vehicle Parameters are worked with as by `vehicleChanged`; the Class Policy Table is only taken. -/
theorem newTablesComeIntoForceAtVsbAndTu : Obligations.NewTablesComeIntoForceAtVsbAndTu := by
  intro s awake
  refine ⟨fun waits => ?_, fun waits => ?_⟩
  · refine (whenever_holds awake (decide_eq_true waits) _).trans ?_
    unfold takeVehicleParameters
    rw [vehicleChanged_whole]
    rfl
  · dsimp only [exec, execClassPolicyInForce]
    exact whenever_holds awake (decide_eq_true waits) _

/-- Settles O13: a frame is rejected by its check, or written, referenced and followed by what section 1.5 says. -/
theorem vehicleFrameIsRejectedOrTaken : Obligations.VehicleFrameIsRejectedOrTaken := by
  refine ⟨fun s f rest awake queue => ⟨fun fails => ?_, fun vf passes => ?_⟩, fun p v => ⟨rfl, fun a => ⟨fun refs => ?_, fun refs => ?_⟩⟩⟩
  · dsimp only [exec, execVehicleFrameTake]
    rw [running_awake awake]
    simp only [takeVehicleFrame, queue, fails, countVehicle]
  · have taken : takeVehicleFrame s = applyVehicleFrame vf { s with up := { s.up with vehicleQ := rest } } := by
      simp only [takeVehicleFrame, queue, passes]
    dsimp only [exec, execVehicleFrameTake]
    rw [running_awake awake, taken]
    unfold applyVehicleFrame updateInputs
    simp only [updateInput_eq]
    rw [vehicleChanged_whole]
    exact congrArg Host.Outcome.next (if_congr (requestTriggers_iff _ _) rfl rfl)
  · obtain ⟨source, unreferenced⟩ := refs
    simp [autoReference, source, unreferenced, referencePin]
  · have not : ¬(decide (p.steerSource = .frameElsePin) && !v.pin.referenced) = true := by simpa using refs
    exact if_neg not

end Sys2Proof.Machine

/-! Object frames, scenes and builds, row by row (R22 to R33, R63, R66). -/

namespace Sys2Proof.Machine

/-! ## The check of an object frame (R23) -/

/-- The digit of weight 2ⁱ of a byte. -/
theorem getLsbD_iff (b : Byte) (i : Nat) : b.getLsbD i = true ↔ b.toNat / 2 ^ i % 2 = 1 := by
  rw [BitVec.getLsbD, Nat.testBit_eq_decide_div_mod_eq, decide_eq_true_iff]

/-- A payload that fails the check, by the fields of its header (R23, section 11.2). -/
def ObjectMalformed (payload : List Byte) : Prop :=
  payload.length < 3 ∨ 10 < u8 payload 1 / 16 ∨ (u8 payload 1 / 16 = 10 ∧ ¬u8 payload 1 / 8 % 2 = 1)
    ∨ (u8 payload 1 / 8 % 2 = 1 ∧ 33 < u8 payload 2) ∨ 3 < u8 payload 1 % 8
    ∨ (u8 payload 1 % 8 = 0 ∧ ¬(u8 payload 1 / 16 = 0 ∧ u8 payload 1 / 8 % 2 = 1 ∧ u8 payload 2 = 0))
    ∨ payload.length ≠ 3 + 8 * (u8 payload 1 % 8)

/-- The empty scene, by its fields (R23). -/
theorem isEmptyScene_iff (index : Nat) (last : Bool) (announced count : Nat) :
    isEmptyScene index last announced count = true ↔ (index = 0 ∧ last = true ∧ announced = 0) ∧ count = 0 := by
  simp [isEmptyScene, and_assoc]

/-- The check as it is made, and what passes (R23). -/
theorem parseObject_eq (payload : List Byte) [Decidable (ObjectMalformed payload)] :
    parseObject payload = if ObjectMalformed payload then none else some
      { number := payload.getD 0 0, index := u8 payload 1 / 16, last := (payload.getD 1 0).getLsbD 3
        announced := u8 payload 2
        reports := (List.range (u8 payload 1 % 8)).map fun k => parseReport payload (3 + 8 * k) } := by
  have index : ((payload.getD 1 0).extractLsb' 4 4).toNat = u8 payload 1 / 16 := by
    rw [extractLsb'_eq_div_mod]
    have := (payload.getD 1 0).isLt
    unfold u8
    omega
  have count : ((payload.getD 1 0).extractLsb' 0 3).toNat = u8 payload 1 % 8 := by
    rw [extractLsb'_eq_div_mod]
    unfold u8
    omega
  have last : (payload.getD 1 0).getLsbD 3 = true ↔ u8 payload 1 / 8 % 2 = 1 := getLsbD_iff _ 3
  unfold parseObject
  dsimp only
  rw [index, count]
  refine if_congr ?_ rfl rfl
  unfold ObjectMalformed
  rw [← last]
  simp only [Bool.or_eq_true, Bool.and_eq_true, decide_eq_true_eq, Bool.not_eq_true', Bool.eq_false_iff, ne_eq,
    isEmptyScene_iff, or_assoc]
  tauto

/-! ## Tears (R26, R30) -/

/-- The part with the oldest frame of the Object queue taken and one SA counter one up. -/
def afterObject (i : Fin 11) (rest : List UpFrame) (s : State) : State :=
  countScene i { s with up := { s.up with objectQ := rest } }

section Tears

variable {s : State}

/-- With no scene in progress there is nothing to tear. -/
theorem tearScene_idle (idle : s.sa.progress = none) : tearScene s = s := by
  simp only [tearScene, idle]

/-- The scene in progress is torn: counted, dropped, and SCENE_TORN told to CM (R30). -/
theorem tearScene_tears (busy : s.sa.progress ≠ none) : tearScene s = { s with
    sa := { s.sa with progress := none, buffer := [], stats := bumpAt Stat.scenesTorn s.sa.stats }
    mail := { s.mail with events := s.mail.events ++ [.sceneTorn] } } := by
  obtain ⟨p, progress⟩ := Option.ne_none_iff_exists'.mp busy
  simp only [tearScene, progress]
  rfl

/-- OBJECT_FRAME_TAKE takes the oldest frame of the Object queue, unless a scene waits for TU (R22). -/
theorem exec_objectFrameTake (awake : s.inReset = false) (free : s.sa.handover = false) :
    exec .objectFrameTake s = .next (takeObjectFrame s) := by
  have occasion : (!s.sa.handover) = true := by rw [free]; rfl
  exact whenever_holds awake occasion _

/-- A malformed frame is counted and tears (R23, R30). -/
theorem takeObjectFrame_malformed {f : UpFrame} {rest : List UpFrame} (queue : s.up.objectQ = f :: rest)
    (fails : parseObject f.payload = none) :
    takeObjectFrame s
      = tearScene (afterObject Stat.objFramesMalformed rest s) := by
  simp only [takeObjectFrame, queue, fails, afterObject]

/-- A well-formed frame is counted and placed (R22, R25, R26). -/
theorem takeObjectFrame_taken {f : UpFrame} {rest : List UpFrame} {o : ObjectFrame} (queue : s.up.objectQ = f :: rest)
    (passes : parseObject f.payload = some o) :
    takeObjectFrame s
      = placeFrame o (afterObject Stat.objFramesTaken rest s) := by
  simp only [takeObjectFrame, queue, passes, afterObject]

/-- A frame of index 0 opens a scene, after a tear of the one in progress (R25). -/
theorem placeFrame_opens {o : ObjectFrame} (first : o.index = 0) :
    placeFrame o s = takeReports o { tearScene s with sa := openScene o.number (tearScene s).sa } := if_pos first

/-- A later frame without a scene in progress is an orphan (R26). -/
theorem placeFrame_orphan {o : ObjectFrame} (later : o.index ≠ 0) (idle : s.sa.progress = none) :
    placeFrame o s = countScene Stat.objFramesOrphan s := by
  simp only [placeFrame, if_neg later, idle]

/-- A later frame that is not the one expected tears, and is an orphan (R26). -/
theorem placeFrame_misfit {o : ObjectFrame} {p : SceneProgress} (later : o.index ≠ 0) (progress : s.sa.progress = some p)
    (misfit : p.number ≠ o.number ∨ p.expected ≠ o.index) :
    placeFrame o s = countScene Stat.objFramesOrphan (tearScene s) := by
  have unexpected : ¬(decide (p.number = o.number) && decide (p.expected = o.index)) = true := by
    simpa [imp_iff_not_or] using misfit
  simp only [placeFrame, if_neg later, progress, if_neg unexpected]

/-- The frame expected continues the scene (R25). -/
theorem placeFrame_continues {o : ObjectFrame} {p : SceneProgress} (later : o.index ≠ 0)
    (progress : s.sa.progress = some p) (number : p.number = o.number) (expected : p.expected = o.index) :
    placeFrame o s = takeReports o
      { s with sa := { s.sa with progress := some { p with expected := p.expected + 1 } } } := by
  have fits : (decide (p.number = o.number) && decide (p.expected = o.index)) = true := by simp [number, expected]
  simp only [placeFrame, if_neg later, progress, if_pos fits]

end Tears

/-- Settles O19: the check by its header's fields; a frame that fails it, or that fits no scene, tears or is dropped. -/
theorem objectFramesThatTearOrAreDiscarded : Obligations.ObjectFramesThatTearOrAreDiscarded := by
  classical
  refine ⟨fun payload => ⟨fun malformed => ?_, fun wellFormed => ?_⟩, fun s f rest awake free queue => ⟨fun fails => ?_,
    fun o passes later => ?_⟩⟩
  · exact (parseObject_eq payload).trans (if_pos malformed)
  · refine ⟨_, (parseObject_eq payload).trans (if_neg wellFormed), rfl, rfl, getLsbD_iff _ 3, rfl, by simp, fun k less => ?_⟩
    simp [less]
  · rw [exec_objectFrameTake awake free, takeObjectFrame_malformed queue fails]
    exact ⟨fun idle => congrArg Host.Outcome.next (tearScene_idle (s := afterObject _ rest s) idle),
      fun busy => congrArg Host.Outcome.next (tearScene_tears (s := afterObject _ rest s) busy)⟩
  · rw [exec_objectFrameTake awake free, takeObjectFrame_taken queue passes]
    refine ⟨fun idle => ?_, fun p progress misfit => ?_⟩
    · exact congrArg Host.Outcome.next (placeFrame_orphan (s := afterObject _ rest s) later idle)
    · have busy : s.sa.progress ≠ none := by simp [progress]
      rw [placeFrame_misfit (s := afterObject _ rest s) later progress misfit, tearScene_tears (s := afterObject _ rest s) busy]
      rfl

/-- Settles O20: the frame opens a scene, tearing the one in progress, or continues it; its reports are taken then. -/
theorem objectFramesThatOpenOrContinueAScene : Obligations.ObjectFramesThatOpenOrContinueAScene := by
  intro s f rest o awake free queue passes
  rw [exec_objectFrameTake awake free, takeObjectFrame_taken queue passes]
  refine ⟨fun first idle => ?_, fun first busy => ?_, fun p progress number expected later => ?_⟩
  · rw [placeFrame_opens first, tearScene_idle (s := afterObject _ rest s) idle]
    rfl
  · rw [placeFrame_opens first, tearScene_tears (s := afterObject _ rest s) busy]
    rfl
  · rw [placeFrame_continues (s := afterObject _ rest s) later progress number expected]
    rfl

/-- Settles O22: a count that differs tears; one that agrees completes the scene. -/
theorem countCheckCompletesOrTears : Obligations.CountCheckCompletesOrTears := by
  intro s p announced progress
  refine ⟨fun differs => ?_, fun agrees => ?_⟩
  · simp only [countCheck, progress, if_neg differs]
    exact tearScene_tears (by simp [progress])
  · simp only [countCheck, progress, if_pos agrees, completeScene, clearStale, startTimer_eq, completeStats]
    cases stale : s.sa.stale <;> cases last : s.sa.lastScene <;> simp [sceneGap]

/-- Settles O23: the timer's expiry is written out; a tear from outside is `tearScene`. -/
theorem sceneTimerExpiryAndOutsideTears : Obligations.SceneTimerExpiryAndOutsideTears := by
  intro s awake
  refine ⟨fun expired => whenever_holds awake expired _, fun cause waits => ?_⟩
  have taken : exec (.externalSceneTear cause) s = .next (takeTear cause s) :=
    whenever_holds awake (List.contains_iff_mem.mpr waits) _
  rw [taken]
  exact ⟨fun idle => congrArg Host.Outcome.next (tearScene_idle idle), fun busy => congrArg Host.Outcome.next (tearScene_tears busy)⟩

/-- Settles O31: the refresh timer triggers; a completion stores its results, and triggers where one merged. -/
theorem buildRefreshAndCompletion : Obligations.BuildRefreshAndCompletion := by
  intro s awake
  refine ⟨fun expired => whenever_holds awake expired _, fun idle => ?_, fun b flight => ?_⟩
  · simp only [exec, execBuildCompletion, running_awake awake, idle]
  · simp only [exec, execBuildCompletion, running_awake awake, flight, completeBuild]
    rw [← trigger_start _ rfl]
    rfl

end Sys2Proof.Machine

/-! Misses, breaks and the poll timer of a link, row by row (R106, R108, R109, R130). -/

namespace Sys2Proof.Machine

/-! ## What a miss makes of a link (R108, R109) -/

/-- A record that gained a miss. -/
def missedRec (m : ModuleRec) : ModuleRec := { m with misses := min 15 (m.misses + 1) }

/-- A miss that brings its module to BROKEN. -/
def MissBreaks (u : State) (m : ModuleRec) : Prop :=
  (m.state = .joining ∨ m.state = .active) ∧ u.mu.tables.link.missLimit ≤ (missedRec m).misses

/-- The link with the miss counted. -/
def missCounted (k : Slot) (c : Slc) : Slc :=
  { c with modules := c.modules.set k (missedRec (c.modules.get k)), stats := bumpAt Stat.lnkMisses c.stats }

/-- And with the module BROKEN. -/
def missBroken (k : Slot) (c : Slc) : Slc :=
  { c with
    modules := c.modules.set k { missedRec (c.modules.get k) with state := .broken }
    stats := bumpAt Stat.lnkBreaks (bumpAt Stat.lnkMisses c.stats) }

/-- And silenced. -/
def missSilenced (k : Slot) (c : Slc) : Slc :=
  { missBroken k c with
    modules := c.modules.set k { missedRec (c.modules.get k) with state := .broken, outstanding := none }
    poll := c.poll.set k none
    patternQ := c.patternQ.filter fun f => match f with | .block j _ _ => decide (j ≠ k) | .apply _ => true }

/-- A transmission cut short, counted (assumption 10). -/
def cutCounted (f : LinkFrame) (c : Slc) : Slc :=
  { c with stats := match f with
    | .pattern (.block _ _ _) => bumpAt Stat.lnkBlocksSent (bumpAt Stat.lnkTxCut c.stats)
    | .pattern (.apply _) | .forwarded _ | .join _ _ | .poll _ => bumpAt Stat.lnkTxCut c.stats }

/-- DU told of the break. -/
def breakTold (l : Link) (k : Slot) (u : State) : State :=
  { u with mail := { u.mail with broken := u.mail.broken ++ [(l, k)] } }

/-- The counts of a cut transmission, by its kind. -/
theorem countCut_eq (f : LinkFrame) (c : Slc) : countCut f c = cutCounted f c := by
  cases f
  case pattern p => cases p <;> rfl
  all_goals rfl

section Miss

variable {u : State} {l : Link} {k : Slot}

/-- A break, before its report: the record BROKEN, DU told, and under isolation the module silenced (R109). -/
theorem becomeBroken_eq (l : Link) (k : Slot) (s : State) :
    let c := s.links.get l
    let broken := { c with
      modules := c.modules.modify k fun m => { m with state := .broken }, stats := bumpAt Stat.lnkBreaks c.stats }
    let told := { breakTold l k s with links := s.links.set l broken }
    becomeBroken l k s
      = reportLink l (if s.mu.isolation then cutShort l k (updLink l (silence k) told) else told) := by
  unfold becomeBroken
  simp only [countLink, updModule, updLink_updLink]
  rfl

/-- A miss below the limit is counted (R108). -/
theorem miss_counts (stays : ¬MissBreaks u ((u.links.get l).modules.get k)) :
    miss l k u = { u with links := u.links.set l (missCounted k (u.links.get l)) } := by
  rw [miss_eq]
  exact if_neg stays

/-- A miss at the limit breaks the module (R108, R109). -/
theorem miss_becomesBroken (breaks : MissBreaks u ((u.links.get l).modules.get k)) :
    miss l k u = becomeBroken l k { u with links := u.links.set l (missCounted k (u.links.get l)) } := by
  rw [miss_eq]
  exact if_pos breaks

/-- The break of a miss, before its report (R109). -/
theorem miss_breaks (breaks : MissBreaks u ((u.links.get l).modules.get k)) :
    miss l k u = reportLink l (
      let told := { breakTold l k u with links := u.links.set l (missBroken k (u.links.get l)) }
      if u.mu.isolation then cutShort l k (updLink l (silence k) told) else told) := by
  rw [miss_becomesBroken breaks, becomeBroken_eq]
  simp only [missCounted, missBroken, breakTold, Both.get_set_same, Both.set_set_same, Row.modify, Row.get_set_same,
    Row.set_set]

/-- With isolation OFF nothing more happens (R109). -/
theorem miss_plain (breaks : MissBreaks u ((u.links.get l).modules.get k)) (off : u.mu.isolation = false) :
    miss l k u = reportLink l { breakTold l k u with links := u.links.set l (missBroken k (u.links.get l)) } := by
  rw [miss_breaks breaks, off]
  rfl

/-- With isolation ON the module is silenced (R109). -/
theorem miss_isolates (breaks : MissBreaks u ((u.links.get l).modules.get k)) (on : u.mu.isolation = true) :
    miss l k u = reportLink l (cutShort l k
      { breakTold l k u with links := u.links.set l (missSilenced k (u.links.get l)) }) := by
  rw [miss_breaks breaks, on]
  dsimp only
  rw [if_pos rfl, updLink_set]
  simp only [silence_eq, Both.get_set_same, Both.set_set_same, missBroken, missSilenced, Row.modify, Row.get_set_same,
    Row.set_set] <;> rfl

/-- No transmission to it is cut (R109). -/
theorem miss_silences (breaks : MissBreaks u ((u.links.get l).modules.get k)) (on : u.mu.isolation = true)
    (other : ∀ f q, (u.links.get l).tx = .sending f q → frameAddress f ≠ some k) :
    miss l k u = reportLink l { breakTold l k u with links := u.links.set l (missSilenced k (u.links.get l)) } := by
  rw [miss_isolates breaks on, cutShort_other]
  rw [Both.get_set_same]
  exact other

/-- Or one is, and the next grant is made (R109). -/
theorem miss_cuts (breaks : MissBreaks u ((u.links.get l).modules.get k)) (on : u.mu.isolation = true)
    {f : LinkFrame} {q : BitVec 4} (sending : (u.links.get l).tx = .sending f q) (addressed : frameAddress f = some k) :
    miss l k u = reportLink l (grantNext l
      { breakTold l k u with links := u.links.set l (cutCounted f (missSilenced k (u.links.get l))) }) := by
  have same : (({ breakTold l k u with links := u.links.set l (missSilenced k (u.links.get l)) } : State).links.get l).tx
      = .sending f q := by
    rw [Both.get_set_same]
    exact sending
  rw [miss_isolates breaks on, cutShort_sending l k _ f q same addressed, updLink_set]
  simp only [countCut_eq, Both.get_set_same, Both.set_set_same]

end Miss

/-- Settles O37: the record's reply timer is stopped, and the miss that follows is the one of R108 and R109. -/
theorem replyTimeoutCountsAMissAndMayBreak : Obligations.ReplyTimeoutCountsAMissAndMayBreak := by
  intro s l k awake c m expired present
  dsimp only
  have row : exec (.replyTimerExpiry l k) s = .next (expireReply l k s) := whenever_holds awake expired _
  let stopped : Slc := { c with
    modules := c.modules.set k { m with outstanding := none }, stats := bumpAt Stat.lnkReplyTimeouts c.stats }
  have missed : expireReply l k s = miss l k { s with links := s.links.set l stopped } := by
    unfold expireReply
    have live : ¬decide (effState (moduleRec s l k) = .absent) = true := by rw [decide_eq_true_iff]; exact present
    rw [if_neg live]
    simp only [countLink, updModule, updLink_updLink]
    rfl
  have link : ({ s with links := s.links.set l stopped } : State).links.get l = stopped := Both.get_set_same ..
  have record : stopped.modules.get k = { m with outstanding := none } := Row.get_set_same ..
  have sameBreak : MissBreaks { s with links := s.links.set l stopped }
      ((({ s with links := s.links.set l stopped } : State).links.get l).modules.get k)
      ↔ (m.state = .joining ∨ m.state = .active) ∧ s.mu.tables.link.missLimit ≤ min 15 (m.misses + 1) := by
    rw [link, record]
    rfl
  rw [row, missed]
  refine ⟨fun stays => ?_, fun breaks => ⟨fun off => ?_, fun on other => ?_, fun on f q sending addressed => ?_⟩⟩
  · rw [miss_counts (mt sameBreak.mp stays), link, Both.set_set_same, missCounted, record]
    simp only [stopped, Row.set_set, missedRec]
  · rw [miss_plain (sameBreak.mpr breaks) off, link, missBroken, record]
    simp only [stopped, Row.set_set, Both.set_set_same, missedRec, breakTold]
  · rw [miss_silences (sameBreak.mpr breaks) on (by rw [link]; exact other), link, missSilenced, missBroken, record]
    simp only [stopped, Row.set_set, Both.set_set_same, missedRec, breakTold] <;> rfl
  · rw [miss_cuts (sameBreak.mpr breaks) on (by rw [link]; exact sending) addressed, link, missSilenced, missBroken, record]
    simp only [stopped, Row.set_set, Both.set_set_same, missedRec, breakTold, cutCounted] <;> rfl

/-- What an abandonment takes out of a Pattern queue: the blocks of the generation (R130). -/
theorem filter_isBlockOf (gen : Byte) (fs : List PatternFrame) : fs.filter (fun f => !isBlockOf gen f)
    = fs.filter fun f => match f with | .block _ n _ => decide (n ≠ gen) | .apply _ => true := by
  refine List.filter_congr fun f _ => ?_
  cases f <;> simp [isBlockOf]

/-- Settles O44: the apply timer's expiry is `abandon`; a miss charged is passed over for an ABSENT slot, or that of
R108 and R109. -/
theorem applyTimeoutAbandonsTheGeneration : Obligations.ApplyTimeoutAbandonsTheGeneration := by
  intro s g ph awake expired delivering
  refine ⟨?_, fun u l k => ⟨fun absent => if_pos absent, fun present => ?_, fun f => ?_⟩⟩
  · have row : exec .applyTimerExpiry s = .next (abandon g s) := by
      refine (whenever_holds awake expired _).trans (congrArg Host.Outcome.next ?_)
      simp only [expireApply, delivering]
    have du : (s.du.ackSet.foldl (fun u m => chargeMiss m.1 m.2 u) s).du = s.du :=
      foldl_keeps_member (fun u => u.du) _ (fun u m => by simp) _ _
    have events : (s.du.ackSet.foldl (fun u m => chargeMiss m.1 m.2 u) s).mail.events = s.mail.events :=
      foldl_keeps_member (fun u => u.mail.events) _ (fun u m => chargeMiss_events m.1 m.2 u) _ _
    rw [row]
    unfold abandon
    dsimp only
    generalize s.du.ackSet.foldl (fun u m => chargeMiss m.1 m.2 u) s = t at du events ⊢
    simp only [dropBlocks, filter_isBlockOf, countDelivery, sendEvent, updLink_du, updLink_mail, du, events]
    rfl
  · have charged : chargeMiss l k u = miss l k u := if_neg present
    rw [charged]
    exact ⟨miss_counts, fun breaks => ⟨miss_plain breaks, miss_silences breaks, fun on f q => miss_cuts breaks on⟩⟩
  · cases f
    case pattern p => cases p <;> rfl
    all_goals rfl

/-- Settles O38: the entries filled are those of R106, and an IDLE transmitter wakes for them. -/
theorem pollTimerFillsThePollGroup : Obligations.PollTimerFillsThePollGroup := by
  intro s l awake c expired
  refine ⟨c.poll.mapIdx fun k e => pollEntry s.mu.isolation (c.modules.get k) e, fun k => ?_, ?_⟩
  · have either : ((c.poll.get k).isSome || (c.modules.get k).outstanding.isSome) = true
        ↔ (c.poll.get k).isSome = true ∨ (c.modules.get k).outstanding.isSome = true := Bool.or_eq_true_iff
    exact (Row.get_mapIdx ..).trans (if_congr either rfl rfl)
  · refine (whenever_holds awake expired _).trans (congrArg Host.Outcome.next ?_)
    unfold expirePoll wake
    rw [updLink_updLink, updLink_set]
    simp only [wakeSlc_eq, startTimer_eq]
    rfl

end Sys2Proof.Machine

/-! The arbiter's grants and the completions of a link, row by row (R104, R106, R113 to R118, R120, R129). -/

namespace Sys2Proof.Machine

/-! ## The rotation (R116) -/

section Grants

variable {c : Slc}

/-- Whether a member requests, said of what it holds. -/
def Requesting (c : Slc) : Member → Prop
  | .pattern => c.patternQ ≠ []
  | .pass => c.passQ ≠ []
  | .pollGroup => ∃ k, c.poll.get k ≠ none

/-- The arbiter reads just that. -/
theorem requests_iff (c : Slc) (m : Member) : requests c m = true ↔ Requesting c m := by
  cases m
  case pattern | pass => simp [requests, Requesting]
  case pollGroup => exact anyPoll_iff c.poll

/-- A member that requests nothing. -/
theorem requests_eq_false (m : Member) (quiet : ¬Requesting c m) : requests c m = false :=
  Bool.eq_false_iff.mpr (mt (requests_iff c m).mp quiet)

/-- The member right after the last granted one is chosen where it requests. -/
theorem rotationChoice_first {m : Member} (next : memberAfter c.lastGranted = m) (asks : Requesting c m) :
    rotationChoice c = some m := by
  have first := (requests_iff c m).mpr asks
  simp only [rotationChoice, next, List.find?_cons, first]

/-- The one after it, where the first requests nothing. -/
theorem rotationChoice_second {m : Member} (next : memberAfter (memberAfter c.lastGranted) = m)
    (quiet : ¬Requesting c (memberAfter c.lastGranted)) (asks : Requesting c m) : rotationChoice c = some m := by
  have second := (requests_iff c m).mpr asks
  simp only [rotationChoice, next, List.find?_cons, requests_eq_false _ quiet, second]

/-- And the last granted one where neither requests. -/
theorem rotationChoice_third (quiet : ¬Requesting c (memberAfter c.lastGranted))
    (quiet' : ¬Requesting c (memberAfter (memberAfter c.lastGranted))) (asks : Requesting c c.lastGranted) :
    rotationChoice c = some c.lastGranted := by
  have third := (requests_iff c c.lastGranted).mpr asks
  simp only [rotationChoice, List.find?_cons, requests_eq_false _ quiet, requests_eq_false _ quiet', third]

/-- With no member requesting, nothing is chosen. -/
theorem rotationChoice_quiet (quiet : ∀ m, ¬Requesting c m) : rotationChoice c = none := by
  simp [rotationChoice, requests_eq_false _ (quiet _)]

/-- Without insistent Pattern the grant is the rotation's (R116). -/
theorem grant_rotates {p : LinkParams}
    (plain : c.lastGranted = .pattern → p.insistent = false ∨ c.patternQ = []) : grant p c = rotationChoice c := by
  refine if_neg fun insists => ?_
  simp only [Bool.and_eq_true, decide_eq_true_eq] at insists
  obtain ⟨⟨on, last⟩, asks⟩ := insists
  rcases plain last with off | empty
  · rw [off] at on; cases on
  · exact (requests_iff c .pattern).mp asks empty

/-- With it, Pattern is granted again while it requests (R116). -/
theorem grant_insists {p : LinkParams} (on : p.insistent = true) (last : c.lastGranted = .pattern)
    (asks : c.patternQ ≠ []) : grant p c = some .pattern := by
  refine if_pos ?_
  rw [on, last, (requests_iff c .pattern).mpr asks]
  rfl

/-! ## The frame a grant sends (R115, R117) -/

variable (p : LinkParams) (w : Row 4 ModuleEntry)

/-- Pattern sends the head of its queue. -/
theorem sendOrPark_pattern {f : PatternFrame} {rest : List PatternFrame} (queue : c.patternQ = f :: rest) :
    sendOrPark p w (some .pattern) c = { c with
      patternQ := rest, tx := .sending (.pattern f) c.txSeq, txSeq := c.txSeq + 1, lastGranted := .pattern } := by
  simp only [sendOrPark, takeHead, queue, Option.bind_some, Option.map_some, startSending]

/-- Pass sends the head of its queue. -/
theorem sendOrPark_passQ {f : PassFrame} {rest : List PassFrame} (queue : c.passQ = f :: rest) :
    sendOrPark p w (some .pass) c = { c with
      passQ := rest, tx := .sending (.forwarded f) c.txSeq, txSeq := c.txSeq + 1, lastGranted := .pass } := by
  simp only [sendOrPark, takeHead, queue, Option.bind_some, Option.map_some, startSending]

/-- The Poll group sends the frame of its choice. -/
theorem sendOrPark_poll {k : Slot} {kind : PollKind} (choice : pollChoice c = some (k, kind)) :
    sendOrPark p w (some .pollGroup) c = { c with
      poll := c.poll.set k none, lastServed := k, tx := .sending (pollFrame w k kind) c.txSeq
      txSeq := c.txSeq + 1, lastGranted := .pollGroup } := by
  simp only [sendOrPark, takeHead, choice, Option.bind_some, Option.map_some, startSending]

/-- A member granted that requests is the last granted one then. -/
theorem sendOrPark_lastGranted {m : Member} (asks : Requesting c m) :
    (sendOrPark p w (some m) c).lastGranted = m := by
  obtain ⟨f, c', head⟩ := takeHead_isSome (windows := w) ((requests_iff c m).mpr asks)
  simp only [sendOrPark, head, Option.bind_some, Option.map_some, startSending]

end Grants

/-- Settles O39: which member the rotation chooses, and what each sends. -/
theorem wakeEndGrantsOrParks : Obligations.WakeEndGrantsOrParks := by
  refine ⟨fun s l awake waking => whenever_holds awake (decide_eq_true waking) _, fun s l => rfl, fun p w c => ?_⟩
  intro before parked noPoll sendsPattern sendsPass sendsPoll
  have before_eq (m : Member) : before m = memberBefore m := by cases m <;> rfl
  have pollQuiet (none_ : noPoll) : ¬Requesting c .pollGroup := fun ⟨k, filled⟩ => filled (none_ k)
  have passQuiet (empty : c.passQ = []) : ¬Requesting c .pass := not_not.mpr empty
  have patternQuiet (empty : c.patternQ = []) : ¬Requesting c .pattern := not_not.mpr empty
  refine ⟨fun quiet => ?_, fun f rest queue notPoll => ?_, fun f rest queue last poll => ?_,
    fun k kind entry first pass poll => ?_, fun m previous asks => ?_⟩
  case refine_1 =>
    obtain ⟨noPattern, quiet⟩ := not_or.mp quiet
    obtain ⟨noPass, noPoll⟩ := not_or.mp quiet
    have quiet (m : Member) : ¬Requesting c m := by
      cases m
      · exact noPattern
      · exact noPass
      · exact noPoll
    have parks : sendOrPark p w none c = parked :=
      congrArg (fun m => { c with tx := .idle, lastGranted := m }) (before_eq (parkedMember p c)).symm
    unfold nextGrant wakeGrant
    rw [grant_rotates fun _ => .inr (not_not.mp noPattern), rotationChoice_quiet quiet]
    exact ⟨parks, parks⟩
  case refine_2 =>
    have asks : c.patternQ ≠ [] := by simp [queue]
    have chosen (alone : c.lastGranted = .pattern → c.passQ = [] ∧ noPoll) : rotationChoice c = some .pattern := by
      cases last : c.lastGranted
      case pattern =>
        obtain ⟨empty, none_⟩ := alone last
        have third := rotationChoice_third (c := c) (by rw [last]; exact passQuiet empty)
          (by rw [last]; exact pollQuiet none_) (by rw [last]; exact asks)
        rwa [last] at third
      case pass => exact rotationChoice_second (by rw [last]; rfl) (by rw [last]; exact pollQuiet (notPoll last)) asks
      case pollGroup => exact rotationChoice_first (by rw [last]; rfl) asks
    refine ⟨fun again => ?_, fun alone => ?_⟩
    · have granted : grant p c = some .pattern := by
        by_cases insists : p.insistent = true ∧ c.lastGranted = .pattern
        · exact grant_insists insists.1 insists.2 asks
        · have off (last : c.lastGranted = .pattern) : p.insistent = false :=
            Bool.eq_false_iff.mpr fun on => insists ⟨on, last⟩
          rw [grant_rotates fun last => .inl (off last)]
          exact chosen fun last => (again last).resolve_left fun on => insists ⟨on, last⟩
      rw [nextGrant, granted]
      exact sendOrPark_pattern p w queue
    · rw [wakeGrant, chosen alone]
      exact sendOrPark_pattern p w queue
  case refine_3 =>
    have asks : c.passQ ≠ [] := by simp [queue]
    have chosen : rotationChoice c = some .pass := by
      cases granted : c.lastGranted
      case pattern => exact rotationChoice_first (by rw [granted]; rfl) asks
      case pass =>
        obtain ⟨empty, none_⟩ := last granted
        have third := rotationChoice_third (c := c) (by rw [granted]; exact pollQuiet none_)
          (by rw [granted]; exact patternQuiet empty) (by rw [granted]; exact asks)
        rwa [granted] at third
      case pollGroup => exact rotationChoice_second (by rw [granted]; rfl) (by rw [granted]; exact patternQuiet (poll granted)) asks
    refine ⟨fun plain => ?_, ?_⟩
    · rw [nextGrant, grant_rotates plain, chosen]
      exact sendOrPark_passQ p w queue
    · rw [wakeGrant, chosen]
      exact sendOrPark_passQ p w queue
  case refine_4 =>
    have asks : Requesting c .pollGroup := ⟨k, by simp [entry]⟩
    have chosen : rotationChoice c = some .pollGroup := by
      cases granted : c.lastGranted
      case pattern => exact rotationChoice_second (by rw [granted]; rfl) (by rw [granted]; exact passQuiet (pass granted)) asks
      case pass => exact rotationChoice_first (by rw [granted]; rfl) asks
      case pollGroup =>
        obtain ⟨noPattern, noPass⟩ := poll granted
        have third := rotationChoice_third (c := c) (by rw [granted]; exact patternQuiet noPattern)
          (by rw [granted]; exact passQuiet noPass) (by rw [granted]; exact asks)
        rwa [granted] at third
    have sends : sendOrPark p w (some .pollGroup) c = sendsPoll k kind := by
      rw [sendOrPark_poll p w (pollChoice_spec c k kind entry first)]
      cases kind <;> rfl
    refine ⟨fun plain => ?_, ?_⟩
    · rw [nextGrant, grant_rotates plain, chosen]
      exact sends
    · rw [wakeGrant, chosen]
      exact sends
  case refine_5 =>
    have requesting : Requesting c m := by cases m <;> exact asks
    have next : memberAfter c.lastGranted = m := by
      rw [previous, before_eq]
      cases m <;> rfl
    rw [wakeGrant, rotationChoice_first next requesting]
    exact sendOrPark_lastGranted p w requesting

/-! ## Completions (R106, R113, R114, R129) -/

/-- LINK_TX_COMPLETE of the frame being sent is its completion, then the next grant (R115). -/
theorem exec_linkTxComplete {s u : State} {l : Link} {f : LinkFrame} {q : BitVec 4} (awake : s.inReset = false)
    (sending : (s.links.get l).tx = .sending f q) (completes : frameSent l f s = u) :
    exec (.linkTxComplete l) s = .next (grantNext l u) := by
  simp only [exec, execLinkTxComplete, running_awake awake, sending, completes]

/-- An APPLY's completion that is the second to end ends the delivery (R129, R144). -/
theorem applyTransmitted_ends {s : State} {l : Link} {g : GenRecord} (delivering : s.du.delivering = some (g, .applying))
    (left : (s.du.applyDone.set l true).left = true) (right : (s.du.applyDone.set l true).right = true) :
    applyTransmitted l s = endDelivery { s with
      du := { s.du with
        applyDone := s.du.applyDone.set l true, applied := some (g.number, g.mode)
        stats := bumpAt Stat.duApplied s.du.stats }
      cm := { s.cm with appliedMode := some g.mode, fbk := decide (g.mode = .fallback) } } := by
  simp only [applyTransmitted, delivering, left, right, Bool.and_self, if_true, cmApplied]

/-- Any other is noted (R129). -/
theorem applyTransmitted_waits {s : State} {l : Link} (waits : s.du.delivering.map Prod.snd ≠ some .applying
      ∨ (s.du.applyDone.set l true).left = false ∨ (s.du.applyDone.set l true).right = false) :
    applyTransmitted l s = { s with du := { s.du with applyDone := s.du.applyDone.set l true } } := by
  unfold applyTransmitted
  dsimp only
  split
  case h_1 g applying =>
    refine if_neg fun both => ?_
    rw [Bool.and_eq_true] at both
    obtain ⟨left, right⟩ := both
    rcases waits with other | other | other
    · exact other (by rw [applying]; rfl)
    · rw [left] at other; cases other
    · rw [right] at other; cases other
  all_goals rfl

/-- A reply timer starts for a slot that is not ABSENT by now (R106). -/
theorem startReplyTimer_starts {s : State} {l : Link} {k : Slot} (kind : PollKind)
    (present : effState ((s.links.get l).modules.get k) ≠ .absent) :
    startReplyTimer l k kind s = { s with links := s.links.set l { s.links.get l with
      modules := (s.links.get l).modules.set k { (s.links.get l).modules.get k with
        outstanding := some (kind, s.now + 1000 * s.mu.tables.link.replyTimeout) } } } := by
  have later : msToUs s.mu.tables.link.replyTimeout = 1000 * s.mu.tables.link.replyTimeout := by
    rw [msToUs, Nat.mul_comm]
  unfold startReplyTimer
  rw [if_neg (show ¬effState (moduleRec s l k) = .absent from present), later]
  rfl

/-- Settles O40: the completion by the frame's kind, then the grant. -/
theorem linkTransmissionsCompleteByKind : Obligations.LinkTransmissionsCompleteByKind := by
  intro s l q awake
  refine ⟨fun k g levels sending => exec_linkTxComplete awake sending rfl,
    fun f sending => exec_linkTxComplete awake sending rfl, fun k kind sending => ?_,
    fun gen sending => ⟨fun g delivering left right => ?_, fun waits => ?_⟩⟩
  · have completes {u : State} (starts : startReplyTimer l k kind s = u) :
        exec (.linkTxComplete l) s = .next (grantNext l u) := by
      rcases sending with ⟨sending, rfl⟩ | ⟨⟨w, sending⟩, rfl⟩
      · exact exec_linkTxComplete awake sending starts
      · exact exec_linkTxComplete awake sending starts
    exact ⟨fun absent => completes (if_pos absent), fun present => completes (startReplyTimer_starts kind present)⟩
  · exact exec_linkTxComplete awake sending (applyTransmitted_ends delivering left right)
  · exact exec_linkTxComplete awake sending (applyTransmitted_waits waits)

/-! ## Frames received (R104, R120, R160) -/

/-- Settles O35: by the class of what arrived and the kind of a good frame. -/
theorem linkFramesAreClassedAndHandedOn : Obligations.LinkFramesAreClassedAndHandedOn := by
  refine ⟨fun s l bytes awake => ?_, fun code small => ?_⟩
  · rw [exec_linkFrameReceive awake]
    refine ⟨fun error => ?_, fun rejected => ?_, fun f good present => ⟨fun k gen kind => ?_, fun k code payload kind => ?_⟩⟩
    · simp only [receiveLink, error]
      rfl
    · rcases rejected with rejected | ⟨f, good, absent⟩
      · simp only [receiveLink, rejected]
        rfl
      · have gone : effState (moduleRec s l (frameSlot f)) = .absent := absent
        simp only [receiveLink, good, if_pos gone]
        rfl
    · rw [receiveLink_good good present, kind]
      rfl
    · subst kind
      have handed : takeModuleFrame l (.passUp k code payload) (updLink l (slcHeard k) s)
          = offerPassUp ⟨passUpCode code, payload⟩
            (updLink l (fun c => { slcHeard k c with stats := bumpAt Stat.lnkPassUp (slcHeard k c).stats }) s) := by
        simp only [takeModuleFrame, countLink, updLink_updLink]
      rw [receiveLink_good good present]
      refine ⟨fun room => ?_, fun full => ?_⟩
      · exact congrArg Host.Outcome.next (handed.trans ((if_pos room).trans rfl))
      · exact congrArg Host.Outcome.next (handed.trans ((if_neg (Nat.not_lt.mpr full)).trans rfl))
  · rw [passUpCode, if_pos (by omega), BitVec.toNat_ofNat]
    omega

end Sys2Proof.Machine

/-! What a condition's move settles, and the NOTICE in bytes (R143, R145, R146, section 11.3). -/

namespace Sys2Proof.Machine

/-! ## The stages of a settling -/

section Settling

variable (c : Cond) (m : Moved) (s : State)

/-- The move places its condition in the latched report set (R145). -/
def moveJoins : Bool := m.entered.any (joins (s.mu.tables.condition.get (condNo c)).report)

/-- The move enters or leaves FAULT (R143). -/
def moveFaults : Bool :=
  m.entered.any (fun st => decide (st = .fault))
    || (decide ((s.cm.recs.get (condNo c)).state = .fault) && decide (m.record.state ≠ .fault))

/-- CM after the move, before its NOTICE. -/
def movedCm : Cm :=
  let recs := s.cm.recs.set (condNo c) m.record
  { s.cm with
    recs := recs
    latched := if moveJoins c m s then s.cm.latched.set (condNo c) true else s.cm.latched
    action := if moveFaults c m s then actionLevel s.mu.tables.condition recs else s.cm.action }

/-- The part after the move, before its NOTICE: a changed action level triggers (R143). -/
def movedPart : State :=
  if (movedCm c m s).action = s.cm.action then { s with cm := movedCm c m s } else trigger { s with cm := movedCm c m s }

variable {c m s}

/-- A settling is the move and, where it joins with none outstanding, a NOTICE (R146). -/
theorem settle_eq_moved : settle c m s
    = if moveJoins c m s && !s.cm.outstanding then placeNotice (movedPart c m s) else movedPart c m s := by
  have stages := settle_eq c m s
  exact stages

/-- The move's CM stands in it. -/
theorem movedPart_cm : (movedPart c m s).cm = movedCm c m s := by
  unfold movedPart
  split <;> simp

/-- A build trigger leaves the strap value. -/
theorem trigger_strap (s : State) : (trigger s).mu.strap = s.mu.strap := by
  have only := trigger_onlyBuild s
  unfold OnlyBuild at only
  rw [only]
  rfl

/-- UP is as it was, and the strap value. -/
theorem movedPart_up : (movedPart c m s).up = s.up ∧ (movedPart c m s).mu.strap = s.mu.strap := by
  unfold movedPart
  split
  · exact ⟨rfl, rfl⟩
  · exact ⟨by simp, trigger_strap _⟩

/-- A NOTICE placed leaves PB, MU and the links, and all of CM but that one is outstanding. -/
theorem settle_view : (settle c m s).pb = (movedPart c m s).pb ∧ (settle c m s).mu = (movedPart c m s).mu
    ∧ (settle c m s).links = (movedPart c m s).links
    ∧ ∃ outstanding stats, (settle c m s).cm = { movedCm c m s with outstanding := outstanding, stats := stats } := by
  rw [settle_eq_moved]
  split
  · refine ⟨by simp, by simp, by simp, true, ?_⟩
    rw [placeNotice_cm, movedPart_cm]
    exact ⟨_, rfl⟩
  · exact ⟨rfl, rfl, rfl, s.cm.outstanding, s.cm.stats, movedPart_cm⟩

/-- When a move joins (R145). -/
theorem moveJoins_iff : moveJoins c m s = true
    ↔ ((s.mu.tables.condition.get (condNo c)).report = .alert ∧ (CondState.alert ∈ m.entered ∨ CondState.fault ∈ m.entered))
      ∨ ((s.mu.tables.condition.get (condNo c)).report = .fault ∧ CondState.fault ∈ m.entered) := any_joins_iff _ _

/-- When a move reworks the action level (R143). -/
theorem moveFaults_iff : moveFaults c m s = true ↔ CondState.fault ∈ m.entered
    ∨ ((s.cm.recs.get (condNo c)).state = .fault ∧ m.record.state ≠ .fault) := by
  simp [moveFaults]

/-- Without a NOTICE the settling is the move. -/
theorem settle_quiet (quiet : ¬moveJoins c m s = true ∨ s.cm.outstanding = true) : settle c m s = movedPart c m s := by
  rw [settle_eq_moved]
  refine if_neg fun both => ?_
  rw [Bool.and_eq_true, Bool.not_eq_true'] at both
  obtain ⟨joining, none_⟩ := both
  rcases quiet with quiet | outstanding
  · exact quiet joining
  · rw [none_] at outstanding; cases outstanding

/-- With one, it follows the move (R146). -/
theorem settle_notices (joining : moveJoins c m s = true) (none_ : s.cm.outstanding = false) :
    settle c m s = placeNotice (movedPart c m s) := by
  rw [settle_eq_moved]
  exact if_pos (by rw [joining, none_]; rfl)

end Settling

/-! ## The NOTICE in bytes (section 11.3) -/

/-- A condition state's number is one digit to base four. -/
theorem condStateNo_lt (x : CondState) : condStateNo x < 4 := by
  cases x <;> decide

/-- The number of a condition state is its place in the format's list. -/
theorem condStateNo_place (x : CondState) : [CondState.clear, .alert, .fault, .recovering].idxOf x = condStateNo x := by
  cases x <;> rfl

/-- The number of an action is its place in the format's list. -/
theorem actionNo_place (x : Action) : [Action.none, .dim, .lowOnly, .fallback].idxOf x = actionNo x := by
  cases x <;> rfl

/-- Each of the four digits of a state byte. -/
theorem stateByte_digit (recs : Row 16 CondRec) (i j : Fin 4) : (stateByte recs i).toNat / 4 ^ (3 - j.val) % 4
    = condStateNo (recs.get ⟨4 * i.val + j.val, by omega⟩).state := by
  have digit (k : Fin 4) := condStateNo_lt (recs.get ⟨4 * i.val + k.val, by omega⟩).state
  have zero := digit 0
  have one := digit 1
  have two := digit 2
  have three := digit 3
  unfold stateByte statePair
  rw [BitVec.toNat_ofNat]
  match j with
  | 0 => norm_num at *; omega
  | 1 => norm_num at *; omega
  | 2 => norm_num at *; omega
  | 3 => norm_num at *; omega

/-- Byte `3 + i` of a NOTICE holds the states of four conditions. -/
theorem noticePayload_states (cm : Cm) (i : Fin 4) : u8 (noticePayload cm) (3 + i.val) = (stateByte cm.recs i).toNat := by
  match i with
  | 0 => rfl
  | 1 => rfl
  | 2 => rfl
  | 3 => rfl

/-- Bytes 1 and 2 hold the latched report set. -/
theorem noticePayload_latched (cm : Cm) :
    256 * u8 (noticePayload cm) 1 + u8 (noticePayload cm) 2 = latchedNumber cm.latched := by
  have small : latchedNumber cm.latched < 65536 := (latchedNumber_bits cm.latched).1
  have high : u8 (noticePayload cm) 1 = latchedNumber cm.latched / 256 % 256 := BitVec.toNat_ofNat ..
  have low : u8 (noticePayload cm) 2 = latchedNumber cm.latched % 256 := BitVec.toNat_ofNat ..
  omega

/-- Byte 7 holds the action level and FBK. -/
theorem noticePayload_action (cm : Cm) :
    u8 (noticePayload cm) 7 = actionNo cm.action + if cm.fbk then 4 else 0 := by
  have last : u8 (noticePayload cm) 7 = (actionNo cm.action + if cm.fbk then 4 else 0) % 256 := BitVec.toNat_ofNat ..
  have small : actionNo cm.action ≤ 3 := by cases cm.action <;> decide
  rw [last]
  split <;> omega

/-- Settles O47: the stages of a settling, and the bytes of a NOTICE. -/
theorem conditionMovesReportAndAct : Obligations.ConditionMovesReportAndAct := by
  refine ⟨fun s c m => ?_, fun cm => ?_⟩
  case refine_1 =>
    intro t e joining moved
    have joining_iff : moveJoins c m s = true ↔ joining := moveJoins_iff
    have moved_iff : moveFaults c m s = true ↔ moved := moveFaults_iff
    obtain ⟨pb, mu, links, outstanding, stats, cm⟩ := settle_view (c := c) (m := m) (s := s)
    have recs : t.cm.recs = s.cm.recs.set (condNo c) m.record := by rw [cm]; rfl
    have latched : t.cm.latched = if moveJoins c m s then s.cm.latched.set (condNo c) true else s.cm.latched := by
      rw [cm]; rfl
    have action : t.cm.action = if moveFaults c m s then actionLevel s.mu.tables.condition t.cm.recs else s.cm.action := by
      rw [recs, cm]; rfl
    have moves : (movedCm c m s).action = t.cm.action := by rw [cm]
    refine ⟨fun i => ?_, fun i => ?_, fun stays => ?_, fun faults => ?_, fun same => ?_, fun changed => ?_, fun quiet => ?_,
      fun joins none_ empty => ?_, by rw [cm]; rfl, by rw [cm]; rfl⟩
    · rw [recs, Row.get_set]
    · rw [latched, latched_set_iff, joining_iff]
    · rw [action, if_neg (mt moved_iff.mp stays)]
    · rw [action, if_pos (moved_iff.mpr faults)]
      exact actionLevel_highest _ _
    · have unmoved : movedPart c m s = { s with cm := movedCm c m s } := if_pos (moves.trans same)
      rw [pb, mu, unmoved]
      exact ⟨rfl, rfl⟩
    · have triggers : movedPart c m s = trigger { s with cm := movedCm c m s } :=
        if_neg fun same => changed (moves.symm.trans same)
      have start : ({ t.cm with outstanding := s.cm.outstanding, stats := s.cm.stats } : Cm) = movedCm c m s := by
        rw [cm]
        rfl
      intro u
      have placed : u = movedPart c m s := by rw [triggers, ← start]
      rw [placed]
      exact ⟨pb, mu, links⟩
    · have noNotice : t = movedPart c m s := settle_quiet (quiet.imp_left (mt joining_iff.mp))
      rw [noNotice, movedPart_cm]
      exact ⟨movedPart_up.1, rfl, rfl⟩
    · have notice : t = placeNotice (movedPart c m s) := settle_notices (joining_iff.mpr joins) none_
      obtain ⟨up, strap⟩ := movedPart_up (c := c) (m := m) (s := s)
      have free : (movedPart c m s).up.notice.isSome = false := by rw [up, empty]; rfl
      have placedCm := placeNotice_cm (movedPart c m s)
      have placedUp : (placeNotice (movedPart c m s)).up = upStartUp (movedPart c m s).mu.strap
        { (movedPart c m s).up with notice := some ⟨noticePayload (movedPart c m s).cm, none⟩ } := rfl
      rw [movedPart_cm, free] at placedCm
      rw [up, strap, movedPart_cm] at placedUp
      rw [notice, placedCm, placedUp]
      exact ⟨rfl, rfl, rfl⟩
  case refine_2 =>
    intro p
    refine ⟨rfl, rfl, fun i => ?_, fun i => ?_, ?_⟩
    · rw [noticePayload_latched]
      exact (latchedNumber_bits cm.latched).2 i
    · have place : (⟨4 * (i.val / 4) + i.val % 4, by omega⟩ : Fin 16) = i := Fin.ext (Nat.div_add_mod ..)
      have digit := stateByte_digit cm.recs ⟨i.val / 4, by omega⟩ ⟨i.val % 4, by omega⟩
      rw [← noticePayload_states] at digit
      simp only [place] at digit
      rw [condStateNo_place]
      exact digit
    · rw [noticePayload_action, actionNo_place]

end Sys2Proof.Machine

/-! A Condition Table that came into force, taken by CM (R137, R143). -/

namespace Sys2Proof.Machine

section TableInForce

variable {s t u : State} {c : Cond} {m : Moved}

/-- Only PB, the condition records and the action level differ, and what a pending commit needs stands. -/
def OnlyActs (s t : State) : Prop :=
  ConfigOk t ∧ ∃ pb recs action, t = { s with pb := pb, cm := { s.cm with recs := recs, action := action } }

/-- One such change after another. -/
theorem OnlyActs.trans (first : OnlyActs s t) (second : OnlyActs t u) : OnlyActs s u := by
  obtain ⟨_, pb, recs, action, rfl⟩ := first
  obtain ⟨ok, pb', recs', action', rfl⟩ := second
  exact ⟨ok, pb', recs', action', rfl⟩

/-- A trigger outside a commit, or one a build in flight merges, changes PB alone (R61, R64). -/
theorem trigger_acts (ok : ConfigOk s) : ∃ pb, trigger s = { s with pb := pb } := by
  by_cases building : s.pb.build = none
  · have uncommitted : s.mu.commitPending = false :=
      Bool.eq_false_iff.mpr fun pending => (ok.2 pending).1 building
    rw [trigger_start s building, buildStart_uncommitted uncommitted]
    exact ⟨_, rfl⟩
  · rw [trigger_merges building]
    exact ⟨_, rfl⟩

/-- It leaves the records and the action level it finds. -/
theorem OnlyActs.trigger (ok : ConfigOk s) (recs : Row 16 CondRec) (action : Action) :
    OnlyActs s (trigger { s with cm := { s.cm with recs := recs, action := action } }) := by
  have found : ConfigOk { s with cm := { s.cm with recs := recs, action := action } } := ok
  obtain ⟨pb, triggered⟩ := trigger_acts found
  exact ⟨trigger_config found.1, pb, recs, action, triggered⟩

/-- A move that does not join acts so (R143, R145). -/
theorem OnlyActs.settle (ok : ConfigOk s) (silent : moveJoins c m s = false) : OnlyActs s (settle c m s) := by
  have cm : movedCm c m s
      = { s.cm with recs := (movedCm c m s).recs, action := (movedCm c m s).action } := by
    simp only [movedCm, silent, Bool.false_eq_true, if_false]
  rw [settle_quiet (.inl (by rw [silent]; exact Bool.false_ne_true)), movedPart]
  split
  · refine ⟨ok, s.pb, (movedCm c m s).recs, (movedCm c m s).action, ?_⟩
    rw [← cm]
  · rw [cm]
    exact OnlyActs.trigger ok _ _

/-! ## One condition's turn -/

/-- The record of a condition after its turn (R137). -/
def relatched (x : LatchingChange) (now : Nat) (table : Row 16 CondEntry) (c : Cond) (r : CondRec) : CondRec :=
  if x.before.get (condNo c) && !x.after.get (condNo c) then (unlatched now c (table.get (condNo c)) r).record else r

/-- A turn enters neither ALERT nor FAULT. -/
theorem unlatched_silent (now : Nat) (c : Cond) (e : CondEntry) (r : CondRec) (report : ReportAt) :
    (unlatched now c e r).entered.any (joins report) = false := by
  have recovering : joins report .recovering = false := by cases report <;> rfl
  have clear : joins report .clear = false := by cases report <;> rfl
  unfold unlatched
  split
  · split
    · rfl
    · unfold levelRecover
      split <;> simp [recovering, clear]
  all_goals rfl

/-- What the turn of one condition does. -/
theorem OnlyActs.relatch (ok : ConfigOk s) (x : LatchingChange) (c : Cond) : OnlyActs s (relatch x s c)
    ∧ ∀ i, (relatch x s c).cm.recs.get i = if i = condNo c
        then relatched x s.now s.mu.tables.condition c (s.cm.recs.get (condNo c)) else s.cm.recs.get i := by
  unfold Machine.relatch relatched
  split
  · refine ⟨OnlyActs.settle ok (unlatched_silent ..), fun i => ?_⟩
    rw [runCondition, settle_recs, Row.get_set]
  · refine ⟨⟨ok, s.pb, s.cm.recs, s.cm.action, rfl⟩, fun i => ?_⟩
    split
    case isTrue own => rw [own]
    case isFalse => rfl

/-- A condition not in FAULT stays (R137). -/
theorem unlatched_other (now : Nat) (c : Cond) (e : CondEntry) (r : CondRec) (other : r.state ≠ .fault) :
    unlatched now c e r = stay r := by
  unfold unlatched
  split
  case h_1 faulted => exact absurd faulted other
  case h_2 faulted => exact absurd faulted other
  all_goals rfl

/-- One in FAULT recovers, or its recovery timer starts (R137). -/
theorem unlatched_fault (now : Nat) (c : Cond) (e : CondEntry) (r : CondRec) (faulted : r.state = .fault) :
    (unlatched now c e r).record = match condKind c with
      | .event => { r with recover := some (now + 1000 * e.recovery) }
      | .level =>
        if condRaw c r then r
        else if e.recovery = 0 then { r with state := .clear, count := 0, persist := none, recover := none }
        else { r with state := .recovering, recover := some (now + 1000 * e.recovery) } := by
  have timer : startTimer now e.recovery = some (now + 1000 * e.recovery) :=
    congrArg (fun later => some (now + later)) (Nat.mul_comm ..)
  unfold unlatched
  rw [faulted]
  cases condKind c
  case event => rw [← timer]; rfl
  case level =>
    dsimp only
    rw [← timer]
    unfold levelRecover
    split
    · rfl
    · split <;> rfl

/-- The record after a turn, spelled out (R137). -/
theorem relatched_eq (x : LatchingChange) (now : Nat) (table : Row 16 CondEntry) (c : Cond) (r : CondRec) :
    relatched x now table c r
      = if x.before.get (condNo c) = true ∧ x.after.get (condNo c) = false ∧ r.state = .fault then
          match condKind c with
          | .event => { r with recover := some (now + 1000 * (table.get (condNo c)).recovery) }
          | .level =>
            if condRaw c r then r
            else if (table.get (condNo c)).recovery = 0 then
              { r with state := .clear, count := 0, persist := none, recover := none }
            else { r with state := .recovering, recover := some (now + 1000 * (table.get (condNo c)).recovery) }
        else r := by
  unfold relatched
  rw [show (x.before.get (condNo c) && !x.after.get (condNo c)) = decide (x.before.get (condNo c) = true
    ∧ x.after.get (condNo c) = false) by cases x.before.get (condNo c) <;> cases x.after.get (condNo c) <;> rfl]
  by_cases changes : x.before.get (condNo c) = true ∧ x.after.get (condNo c) = false
  · rw [if_pos (decide_eq_true changes)]
    by_cases faulted : r.state = .fault
    · rw [if_pos ⟨changes.1, changes.2, faulted⟩]
      exact unlatched_fault now c _ r faulted
    · rw [if_neg fun all => faulted all.2.2, unlatched_other now c _ r faulted]
      rfl
  · rw [decide_eq_false changes, if_neg Bool.false_ne_true, if_neg fun all => changes ⟨all.1, all.2.1⟩]

/-- The turns of several. -/
theorem OnlyActs.relatchAll (x : LatchingChange) (cs : List Cond) (ok : ConfigOk s) (nodup : cs.Nodup) :
    OnlyActs s (cs.foldl (Machine.relatch x) s) ∧ ∀ c, (cs.foldl (Machine.relatch x) s).cm.recs.get (condNo c)
      = if c ∈ cs then relatched x s.now s.mu.tables.condition c (s.cm.recs.get (condNo c))
        else s.cm.recs.get (condNo c) := by
  induction cs generalizing s with
  | nil => exact ⟨⟨ok, s.pb, s.cm.recs, s.cm.action, rfl⟩, fun c => rfl⟩
  | cons d ds ih =>
    obtain ⟨fresh, nodup⟩ := List.nodup_cons.mp nodup
    obtain ⟨turn, recs⟩ := OnlyActs.relatch ok x d
    obtain ⟨turns, record⟩ := ih turn.1 nodup
    refine ⟨turn.trans turns, fun c => ?_⟩
    have now : (Machine.relatch x s d).now = s.now := by obtain ⟨_, pb, rs, action, same⟩ := turn; rw [same]
    have mu : (Machine.relatch x s d).mu = s.mu := by obtain ⟨_, pb, rs, action, same⟩ := turn; rw [same]
    rw [List.foldl_cons, record c, now, mu, recs]
    by_cases own : c = d
    · subst own
      rw [if_neg fresh, if_pos rfl, if_pos (List.mem_cons_self ..)]
    · have other : condNo c ≠ condNo d := fun same => own (condNo_inj c d same)
      have mem : c ∈ d :: ds ↔ c ∈ ds := by simp [own]
      simp only [if_neg other, mem]

/-- The action level worked out again (R143). -/
theorem OnlyActs.rework (ok : ConfigOk s) : OnlyActs s (reworkAction s)
    ∧ (reworkAction s).cm = { s.cm with action := actionLevel s.mu.tables.condition s.cm.recs } := by
  unfold reworkAction
  dsimp only
  split
  case isTrue same => exact ⟨⟨ok, s.pb, s.cm.recs, s.cm.action, rfl⟩, by rw [same]⟩
  case isFalse => exact ⟨OnlyActs.trigger ok s.cm.recs _, by simp⟩

/-- CM takes the table (R137, R143). -/
theorem OnlyActs.takeTable (x : LatchingChange) (ok : ConfigOk s) : OnlyActs s (takeConditionTable x s)
    ∧ (∀ c, (takeConditionTable x s).cm.recs.get (condNo c)
        = relatched x s.now s.mu.tables.condition c (s.cm.recs.get (condNo c)))
    ∧ (takeConditionTable x s).cm.action = actionLevel s.mu.tables.condition (takeConditionTable x s).cm.recs := by
  have every : ∀ c, c ∈ allConds := by intro c; cases c <;> decide
  have nodup : allConds.Nodup := by decide
  unfold takeConditionTable
  obtain ⟨turns, record⟩ := OnlyActs.relatchAll x allConds ok nodup
  obtain ⟨acts, cm⟩ := OnlyActs.rework turns.1
  have mu : (allConds.foldl (Machine.relatch x) s).mu = s.mu := by
    obtain ⟨_, pb, recs, action, same⟩ := turns
    rw [same]
  rw [cm, mu]
  exact ⟨turns.trans acts, fun c => (record c).trans (if_pos (every c)), rfl⟩

end TableInForce

/-- Settles O48: each condition's turn leaves the set of reports, and the action level is worked out again last. -/
theorem conditionTableComesIntoForce : Obligations.ConditionTableComesIntoForce := by
  intro s x rest awake waiting moveOf sound
  have ok : ConfigOk { s with mail := { s.mail with condTable := rest } } := (configSound_iff awake).mp sound
  have effect : exec .conditionTableInForce s
      = .next (takeConditionTable x { s with mail := { s.mail with condTable := rest } }) := by
    simp only [exec, execConditionTableInForce, running_awake awake, waiting]
  obtain ⟨⟨_, pb, recs, action, same⟩, record, level⟩ := OnlyActs.takeTable x ok
  refine ⟨_, effect, fun c => (record c).trans (relatched_eq ..), ?_⟩
  rw [same] at level ⊢
  exact ⟨rfl, rfl, level, rfl, rfl, rfl, rfl, rfl, rfl⟩

end Sys2Proof.Machine

/-! Frames at the Upstream Port: the error score, the port's state, and the sorting of good frames (R150 to R153, R155 to
R158, R161, R114). -/

namespace Sys2Proof.Machine

/-! ## The score and the port (R151 to R153) -/

section Port

variable {s : State} {n : Nat}

/-- An attached port below both thresholds. -/
theorem setScore_normal (attached : s.up.port ≠ .detached) (low : n < 48) :
    setScore n s = { s with up := { s.up with score := n, port := .normal } } := by
  have band : portAfter s.up.port n = .normal := by
    rcases portAfter_band attached n with ⟨port, _⟩ | ⟨_, _, _⟩ | ⟨_, _⟩
    · exact port
    all_goals omega
  unfold setScore
  simp only [band]

/-- Between them: the entry into WARNED is counted. -/
theorem setScore_warned (attached : s.up.port ≠ .detached) (least : 48 ≤ n) (less : n < 144) :
    setScore n s = { s with up := { s.up with
      score := n, port := .warned
      stats := if s.up.port = .warned then s.up.stats else bumpAt Stat.linkDegraded s.up.stats } } := by
  have band : portAfter s.up.port n = .warned := by
    rcases portAfter_band attached n with ⟨_, _⟩ | ⟨port, _, _⟩ | ⟨_, _⟩
    · omega
    · exact port
    · omega
  unfold setScore
  simp only [band]
  split
  · rfl
  · rfl

/-- From the upper one on the port detaches. -/
theorem setScore_detached (attached : s.up.port ≠ .detached) (least : 144 ≤ n) :
    setScore n s = detach { s with up := { s.up with score := n, port := .detached } } := by
  have band : portAfter s.up.port n = .detached := by
    rcases portAfter_band attached n with ⟨_, _⟩ | ⟨_, _, _⟩ | ⟨port, _⟩
    · omega
    · omega
    · exact port
  unfold setScore
  simp only [band, if_neg attached]

/-- The frame in hand at the cut, by its kind (R153, R161). -/
theorem cutInHand_eq (outstanding : Bool) (u : Up) : cutInHand outstanding u = { u with
    tx := none
    held := match u.tx with
      | some ⟨.reply r, f⟩ => some ⟨.reply r, f⟩
      | some ⟨.passUp, f⟩ => some ⟨.passUp, f⟩
      | some ⟨.notice, _⟩ | none => u.held
    notice := match u.tx with
      | some ⟨.notice, f⟩ =>
        if u.notice = none ∧ outstanding = true then some ⟨f.payload, some f.seq⟩ else u.notice
      | some ⟨.reply _, _⟩ | some ⟨.passUp, _⟩ | none => u.notice } := by
  unfold cutInHand
  rcases inHand : u.tx with _ | ⟨kind, f⟩
  case none =>
    have same : u = { u with tx := none } := by rw [← inHand]
    exact same
  case some =>
    cases kind
    case reply | passUp => rfl
    case notice =>
      dsimp only
      split
      case isTrue back =>
        rw [Bool.and_eq_true, Option.isNone_iff_eq_none] at back
        rw [if_pos back]
      case isFalse stays =>
        rw [Bool.and_eq_true, Option.isNone_iff_eq_none] at stays
        rw [if_neg stays]

/-- A report taken at once is taken after those of its condition and link that wait (assumption 28). -/
theorem takeReportNow_folds (x : LevelReport) (s : State) :
    let reports (y : LevelReport) : Bool := decide (y.cond = x.cond ∧ y.link = x.link)
    takeReportNow x s = (s.mail.levels.filter reports ++ [x]).foldl (fun t y => takeLevelReport y t)
      { s with mail := { s.mail with levels := s.mail.levels.filter fun y => !reports y } } := by
  intro reports
  have same : reportsOn x.cond x.link = reports := funext fun y => (Bool.decide_and ..).symm
  rw [← same]
  rfl

end Port

/-- What a received frame does is done where the port listened at its start (R150). -/
theorem exec_upstreamFrameReceive {s : State} {began : Nat} (bytes : List Byte) (awake : s.inReset = false)
    (attached : s.up.port ≠ .detached) (heard : s.up.rxFrom + began ≤ s.now) :
    exec (.upstreamFrameReceive began bytes) s = .next (receiveUpstream bytes s) :=
  whenever_holds awake (by simp [attached, heard]) _

/-- Else it is ignored. -/
theorem exec_upstreamFrameReceive_ignored {s : State} {began : Nat} (bytes : List Byte) (awake : s.inReset = false)
    (deaf : s.up.port = .detached ∨ s.now < s.up.rxFrom + began) :
    exec (.upstreamFrameReceive began bytes) s = .next s := by
  have occasion : (decide (s.up.port ≠ .detached) && decide (s.up.rxFrom + began ≤ s.now)) = false := by
    rcases deaf with detached | early
    · simp [detached]
    · simp [Nat.not_le.mpr early]
  simp only [exec, execUpstreamFrameReceive, whenever, running_awake awake, occasion, Bool.false_eq_true, if_false]

/-- A receive error of each class is counted, and six is added to the score (R150, R151). -/
theorem receiveUpstream_error {s : State} {bytes : List Byte} {i : Fin 19}
    (error : (upArrival bytes = .badCheck ∧ i = Stat.upRxCheck) ∨ (upArrival bytes = .long ∧ i = Stat.upRxLong)
      ∨ (upArrival bytes = .cut ∧ i = Stat.upRxCut)) : receiveUpstream bytes s = receiveError i s := by
  unfold receiveUpstream
  rcases error with ⟨arrival, rfl⟩ | ⟨arrival, rfl⟩ | ⟨arrival, rfl⟩ <;> rw [arrival]

/-! ## LINK_DETACHED (R135, R153) -/

/-- What LINK_DETACHED brings by entering FAULT (R143, R145, R146). -/
theorem settle_detachedFault (s : State) (r : CondRec) (faulted : r.state = .fault) :
    let t := settle .linkDetached ⟨r, [.alert, .fault]⟩ s
    (t.cm.recs.get 14).state = .fault
    ∧ actionNo (s.mu.tables.condition.get 14).action ≤ actionNo t.cm.action
    ∧ ((s.mu.tables.condition.get 14).report = .fault → t.cm.latched.get 14 = true
      ∧ (s.cm.outstanding = false → t.cm.outstanding = true
        ∧ (s.up.port = .detached → t.up.notice.isSome = true))) := by
  intro t
  have entersFault : CondState.fault ∈ (⟨r, [.alert, .fault]⟩ : Moved).entered := by simp
  obtain ⟨records, latches, _, reworks, _⟩ := conditionMovesReportAndAct.1 s .linkDetached ⟨r, [.alert, .fault]⟩
  have state : (t.cm.recs.get 14).state = .fault := by
    have record : t.cm.recs.get 14 = r := (records 14).trans (if_pos rfl)
    rw [record]
    exact faulted
  refine ⟨state, (reworks (.inl entersFault)).1 .linkDetached state, fun report => ⟨?_, fun none_ => ?_⟩⟩
  · exact (latches 14).mpr (.inr ⟨rfl, .inr ⟨report, entersFault⟩⟩)
  · have joins : moveJoins .linkDetached ⟨r, [.alert, .fault]⟩ s = true :=
      moveJoins_iff.mpr (.inr ⟨report, entersFault⟩)
    have noticed : t = placeNotice _ := settle_notices joins none_
    rw [noticed]
    refine ⟨rfl, fun detached => ?_⟩
    obtain ⟨up, _⟩ := movedPart_up (c := .linkDetached) (m := ⟨r, [.alert, .fault]⟩) (s := s)
    have placed : (placeNotice (movedPart .linkDetached ⟨r, [.alert, .fault]⟩ s)).up = upStartUp _ _ := rfl
    rw [placed, upStartUp_blocked (.inl _)]
    · rfl
    · rw [up]
      exact detached

/-- Settles O49: the two bands and the cut, and LINK_DETACHED taken. -/
theorem receiveErrorsMoveTheScoreAndPort : Obligations.ReceiveErrorsMoveTheScoreAndPort := by
  refine ⟨fun s began bytes awake => ⟨exec_upstreamFrameReceive_ignored bytes awake, ?_⟩, fun s value => ?_⟩
  case refine_1 =>
    intro attached heard i error score stats u
    have received : exec (.upstreamFrameReceive began bytes) s = .next (setScore score (countPort i s)) := by
      rw [exec_upstreamFrameReceive bytes awake attached heard, receiveUpstream_error error]
      rfl
    have counted : (countPort i s).up.port ≠ .detached := attached
    refine ⟨fun low => ?_, fun least less => ?_, fun least => ?_⟩
    · rw [received, setScore_normal counted low]
      rfl
    · rw [received, setScore_warned counted least less]
      rfl
    · intro entered reports waiting t back held
      have taken : takeReportNow ⟨.linkDetached, none, true⟩ entered = t := takeReportNow_folds _ entered
      have started : ({ countPort i s with up := { (countPort i s).up with
          score := score, port := .detached, recovery := startTimer s.now recoveryInterval
          stats := bumpAt Stat.upDetaches stats } } : State) = entered := by
        rw [startTimer_eq]
        rfl
      have detaches : setScore score (countPort i s) = { t with
          up := cutInHand t.cm.outstanding t.up, mail := { t.mail with tears := t.mail.tears ++ [.detached] } } := by
        rw [setScore_detached counted least, ← taken, ← started]
        rfl
      have cut := cutInHand_eq t.cm.outstanding t.up
      exact received.trans (congrArg Host.Outcome.next (detaches.trans (congrArg
        (fun up => { t with up := up, mail := { t.mail with tears := t.mail.tears ++ [TearCause.detached] } }) cut)))
  case refine_2 =>
    intro old new base entry t
    have rises (was : old.raw = false) (is : value = true) : t = settle .linkDetached (levelTrue s.now entry new) base :=
      takeLevelReport_rises (x := ⟨.linkDetached, none, value⟩) (s := s) was is
    refine ⟨fun same => ?_, rises, fun was is => ?_, fun was is clear atOnce => ?_⟩
    · exact takeLevelReport_same (x := ⟨.linkDetached, none, value⟩) (s := s) same.symm
    · exact takeLevelReport_falls (x := ⟨.linkDetached, none, value⟩) (s := s) was is
    · have run : levelTrue s.now entry new = { record := intoFault new, entered := [.alert, .fault] } := by
        unfold levelTrue
        have state : new.state = .clear := clear
        simp only [state, atOnce, if_true]
      have settled := rises was is
      rw [run] at settled
      rw [settled]
      exact settle_detachedFault base (intoFault new) rfl

/-! ## Good frames (R150, R151, R155 to R158) -/

/-- A good frame lowers the score within the port's band, so the port's state follows it uncounted (R151, R152). -/
theorem setScore_lowered {s : State} (attached : s.up.port ≠ .detached) (sound : PortSound s) :
    setScore (s.up.score - 1) s = { s with up := { s.up with
      score := s.up.score - 1, port := if s.up.score - 1 < 48 then .normal else .warned } } := by
  obtain ⟨normal, warned, _⟩ := sound
  by_cases low : s.up.score - 1 < 48
  · rw [setScore_normal attached low, if_pos low]
  · have port : s.up.port = .warned := by
      cases was : s.up.port
      case normal => exact absurd (normal was) (by omega)
      case warned => rfl
      case detached => exact absurd was attached
    obtain ⟨_, most⟩ := warned port
    rw [setScore_warned attached (by omega) (by omega), if_neg low, if_pos port]

/-- A stream code is the management request code where their numbers agree (R155). -/
theorem requestCode_iff (code : BitVec 10) (strap : Fin 4) :
    code = requestCode strap ↔ code.toNat = 1000 + 2 * strap.val := by
  have number : (requestCode strap).toNat = 1000 + 2 * strap.val := by
    unfold requestCode
    rw [BitVec.toNat_ofNat, Nat.mod_eq_of_lt (by omega)]
  rw [← number]
  exact ⟨congrArg BitVec.toNat, BitVec.eq_of_toNat_eq⟩

section Sorting

variable {s : State} {f : UpFrame}

/-- A frame of the request code (R155). -/
theorem sortFrame_request (own : f.code.toNat = 1000 + 2 * s.mu.strap.val) : sortFrame f s = offerManagement f s :=
  if_pos ((requestCode_iff _ _).mpr own)

/-- Any other, by the entry that decides for it (R156, R157). -/
theorem sortFrame_placed {a : FilterAction} (other : f.code.toNat ≠ 1000 + 2 * s.mu.strap.val)
    (decides : filterFor s.mu.tables.filter f.code = some a) : sortFrame f s = placeByAction a f s := by
  unfold sortFrame
  rw [if_neg (mt (requestCode_iff _ _).mp other), decides]

/-- Or by none. -/
theorem sortFrame_unmatched (other : f.code.toNat ≠ 1000 + 2 * s.mu.strap.val)
    (none_ : filterFor s.mu.tables.filter f.code = none) : sortFrame f s = countPort Stat.upUnmatched s := by
  unfold sortFrame
  rw [if_neg (mt (requestCode_iff _ _).mp other), none_]

/-- What a frame's action does. -/
theorem placeByAction_eq (a : FilterAction) (f : UpFrame) (s : State) :
    let up (u : Up) (i : Fin 19) : State := { s with up := { u with stats := bumpAt i u.stats } }
    let offered (c : Slc) : Slc :=
      if c.passQ.length < 8 then wakeSlc { c with passQ := c.passQ ++ [⟨f.code, f.payload⟩] }
      else { c with stats := bumpAt Stat.lnkPassDropped c.stats }
    let passed := up s.up Stat.upPassDown
    match a with
    | .object => placeByAction a f s =
        if s.up.objectQ.length < 24 then up { s.up with objectQ := s.up.objectQ ++ [f] } Stat.upObjFrames
        else { up s.up Stat.upObjDropped with mail := { s.mail with events := s.mail.events ++ [.objectOverrun] } }
    | .vehicle => placeByAction a f s =
        if s.up.vehicleQ.length < 4 then up { s.up with vehicleQ := s.up.vehicleQ ++ [f] } Stat.upVehFrames
        else up { s.up with
          vehicleQ := s.up.vehicleQ.tail ++ [f], stats := bumpAt Stat.upVehDisplaced s.up.stats } Stat.upVehFrames
    | .passLeft => placeByAction a f s = { passed with links := { s.links with left := offered s.links.left } }
    | .passRight => placeByAction a f s = { passed with links := { s.links with right := offered s.links.right } }
    | .passBoth => placeByAction a f s = { passed with links := ⟨offered s.links.left, offered s.links.right⟩ }
    | .discard => placeByAction a f s = up s.up Stat.upDiscarded := by
  cases a
  case object => rfl
  case vehicle =>
    intro up _ _
    by_cases room : s.up.vehicleQ.length < 4
    · have free : decide (vehicleCapacity ≤ s.up.vehicleQ.length) = false := decide_eq_false (Nat.not_le.mpr room)
      simp only [placeByAction, offerVehicle, free, Bool.false_eq_true, if_false, if_pos room]
      rfl
    · have full : decide (vehicleCapacity ≤ s.up.vehicleQ.length) = true := decide_eq_true (Nat.not_lt.mp room)
      simp only [placeByAction, offerVehicle, full, if_true, if_neg room]
      rfl
  case passLeft | passRight => exact offerPass_eq _ _ _
  case passBoth =>
    simp only [placeByAction, offerPass_eq]
    rfl
  case discard => rfl

end Sorting

/-- Settles O50: a good frame's score, and the entry that decides where it goes. -/
theorem goodFramesAreSorted : Obligations.GoodFramesAreSorted := by
  refine ⟨fun s began bytes f awake sound attached heard good => ?_, fun s f => ?_⟩
  case refine_1 =>
    have lowered := setScore_lowered (s := countPort Stat.upRxGood s) attached sound
    have received : receiveUpstream bytes s = receiveGood f s := by
      unfold receiveUpstream
      rw [good]
    rw [exec_upstreamFrameReceive bytes awake attached heard, received]
    exact congrArg Host.Outcome.next (congrArg (sortFrame f) lowered)
  case refine_2 =>
    intro up offered passed
    refine ⟨sortFrame_request, fun other => ?_⟩
    intro fits
    refine ⟨fun none_ => ?_, fun i fit first => ?_⟩
    · exact sortFrame_unmatched other (filterFor_none _ _ fun j => mt (entryFits_iff _ _).mp (none_ j))
    · have decides := filterFor_first s.mu.tables.filter f.code i ((entryFits_iff _ _).mpr fit)
        fun j fits => first j ((entryFits_iff _ _).mp fits)
      have placed := placeByAction_eq (s.mu.tables.filter.get i).action f s
      rw [← sortFrame_placed other decides] at placed
      exact placed

end Sys2Proof.Machine

/-! Commands carried out for other blocks (R12, R57, R105, R110, R111, R142, R147, R169). -/

namespace Sys2Proof.Machine

/-! ## A request carried out (R165) -/

/-- Taken as this command, a request leaves what the command comes to, answered. -/
theorem Takes.carries {s : State} {f : UpFrame} {rest : List UpFrame} (takes : Takes s f rest) {c : Command}
    {run : List Byte → State → Carried} {args : List Byte} (asks : parseRequest f = .command c args) {r : Carried}
    (carried : run args (afterTaking rest s) = r) :
    takeCommand c run s = .next (answered f r.status r.data r.restart r.state) :=
  carried ▸ takeCommand_eq takes c run args asks

/-- A link's number names no link above 1. -/
theorem linkOf_none {n : Nat} (other : 1 < n) : linkOf n = none := by
  match n with
  | 0 | 1 => omega
  | _ + 2 => rfl

/-- An address above 3 names no slot. -/
theorem slotOf_none {n : Nat} (other : 3 < n) : slotOf n = none :=
  dif_neg (by omega)

/-- A number above 15 names no condition. -/
theorem condOf_none {n : Nat} (other : 15 < n) : condOf n = none :=
  List.getElem?_eq_none (Nat.le_of_lt_succ (Nat.succ_lt_succ other))

/-- A number above 1 is no yes/no. -/
theorem boolOf_none {n : Nat} (other : 1 < n) : boolOf n = none := by
  match n with
  | 0 | 1 => omega
  | _ + 2 => rfl

/-- A yes/no byte. -/
theorem boolOf_byte {a : Byte} (small : a.toNat ≤ 1) : boolOf a.toNat = some (decide (a = 1)) := by
  rw [boolOf_eq_some]
  by_cases one : a = 1
  · subst one
    rfl
  · have other : a.toNat ≠ 1 := fun same => one (BitVec.eq_of_toNat_eq same)
    rw [decide_eq_false one, if_neg Bool.false_ne_true]
    omega

/-! ## SET_STEER_ZERO, SET_ISOLATION (R12, R110) -/

/-- At its own reference the pin stands at angle 0. -/
theorem pinAngleOf_reference (n : Int) (cpd : Nat) : pinAngleOf n n cpd = 0 := by
  have level : roundDiv ((n - n) * 10) cpd = 0 := by
    have half : (cpd : Nat) / (2 * cpd) = 0 := by
      rcases Nat.eq_zero_or_pos cpd with rfl | positive
      · rfl
      · exact Nat.div_eq_of_lt (by omega)
    have none_ := roundDiv_natCast 0 cpd
    rw [sub_self, zero_mul]
    simpa [half] using none_
  unfold pinAngleOf
  rw [level]
  rfl

/-- The steering pin referenced where it stands (R12). -/
theorem steerZero_eq (s : State) : steerZero s = afterSteer { s.vsb with pin := { s.vsb.pin with
    reference := s.vsb.pin.counter, referenced := true, phaseErrors := 0, angle := 0 } } s := by
  unfold steerZero referencePin
  rw [steerChanged_eq, pinAngleOf_reference]

/-- Every BROKEN module of both links goes back to JOINING, and nothing else of a link changes (R110). -/
theorem rejoinAll_links (s : State) (m : Link) :
    let t := (rejoinAll s).links.get m
    let c := s.links.get m
    (∀ k, t.modules.get k = rejoinedRec (c.modules.get k))
    ∧ (∀ k, t.poll.get k = if effState (c.modules.get k) = .broken then some .join else c.poll.get k)
    ∧ t.patternQ = c.patternQ ∧ t.passQ = c.passQ := by
  have nodup : allSlots.Nodup := by decide
  have every : ∀ k, k ∈ allSlots := by decide
  obtain ⟨modules, poll, pattern, pass⟩ := foldl_rejoinBroken_links .left allSlots s nodup m
  obtain ⟨modules', poll', pattern', pass'⟩ :=
    foldl_rejoinBroken_links .right allSlots (allSlots.foldl (rejoinBroken .left) s) nodup m
  refine ⟨fun k => (modules' k).trans ?_, fun k => (poll' k).trans ?_, pattern'.trans pattern, pass'.trans pass⟩
  · rw [modules k]
    cases m
    case left => rw [if_neg (fun right => nomatch right.1), if_pos ⟨rfl, every k⟩]
    case right => rw [if_pos ⟨rfl, every k⟩, if_neg (fun left_ => nomatch left_.1)]
  · rw [modules k, poll k]
    cases m
    case left => exact (if_neg fun right => nomatch right.1).trans (if_congr (by simp [every k]) rfl rfl)
    case right => exact if_congr (by simp [every k]) rfl (if_neg fun left_ => nomatch left_.1)

/-! ## CLEAR_NOTICE (R147) -/

section ClearNotice

variable {numbers : List Byte} {s : State}

/-- The latched report set after it. -/
theorem clearNotices_latched : (clearNotices numbers s).cm.latched = dropLatched numbers s.cm.latched := by
  unfold clearNotices
  dsimp only
  split
  · rw [placeNotice_cm]
  · rfl

/-- A set left with a condition gives a fresh NOTICE. -/
theorem clearNotices_some (left_ : ∃ i, (dropLatched numbers s.cm.latched).get i = true) :
    clearNotices numbers s = placeNotice { s with cm := { s.cm with latched := dropLatched numbers s.cm.latched } } :=
  if_pos ((anyLatched_iff _).mpr left_)

/-- An empty one takes the NOTICE back. -/
theorem clearNotices_none (empty : ∀ i, (dropLatched numbers s.cm.latched).get i = false) :
    clearNotices numbers s = { s with
      cm := { s.cm with latched := dropLatched numbers s.cm.latched, outstanding := false }
      up := { s.up with notice := none } } := by
  refine if_neg fun any => ?_
  obtain ⟨i, held⟩ := (anyLatched_iff _).mp any
  rw [empty i] at held
  cases held

/-- What it leaves. -/
theorem clearNotices_keeps : (clearNotices numbers s).vsb = s.vsb ∧ (clearNotices numbers s).sa = s.sa
    ∧ (clearNotices numbers s).tu = s.tu ∧ (clearNotices numbers s).pb = s.pb
    ∧ (clearNotices numbers s).links = s.links ∧ (clearNotices numbers s).du = s.du
    ∧ (clearNotices numbers s).mu = s.mu ∧ (clearNotices numbers s).cm.recs = s.cm.recs
    ∧ (clearNotices numbers s).cm.action = s.cm.action := by
  unfold clearNotices
  dsimp only
  split
  · simp [placeNotice_cm]
  · exact ⟨rfl, rfl, rfl, rfl, rfl, rfl, rfl, rfl, rfl⟩

end ClearNotice

/-! ## RECOVER (R111, R142) -/

/-- What RECOVER makes of a condition's record. -/
theorem recovered_event {now : Nat} {c : Cond} {e : CondEntry} {r : CondRec} (faulted : r.state = .fault)
    (kind : condKind c = .event) : recovered now c e r = eventRecover now e r := by
  unfold recovered
  rw [faulted, kind]

/-- A level condition's record, where its raw value is false. -/
theorem recovered_level {now : Nat} {c : Cond} {e : CondEntry} {r : CondRec} (faulted : r.state = .fault)
    (kind : condKind c = .level) (raw : condRaw c r = false) : recovered now c e r = levelRecover now e r := by
  unfold recovered
  rw [faulted, kind]
  simp only [raw, Bool.false_eq_true, if_false]

/-- A record not in FAULT stays. -/
theorem recovered_other {now : Nat} {c : Cond} {e : CondEntry} {r : CondRec} (other : r.state ≠ .fault) :
    recovered now c e r = stay r := by
  unfold recovered
  split
  case h_1 faulted _ => exact absurd faulted other
  case h_2 faulted _ => exact absurd faulted other
  all_goals rfl

/-- A settling that moves nothing changes nothing. -/
theorem settle_stay (c : Cond) (s : State) : settle c (stay (condRec s c)) s = s := by
  have recs : s.cm.recs.set (condNo c) (condRec s c) = s.cm.recs := by
    refine Row.ext_get fun i => ?_
    rw [Row.get_set]
    split
    case isTrue own => rw [own]; rfl
    case isFalse => rfl
  have silent : moveJoins c (stay (condRec s c)) s = false := rfl
  have calm : moveFaults c (stay (condRec s c)) s = false :=
    Bool.eq_false_iff.mpr fun moves => by
      rcases moveFaults_iff.mp moves with enters | ⟨was, is⟩
      · cases enters
      · exact is was
  have cm : movedCm c (stay (condRec s c)) s = s.cm := by
    have stays : (stay (condRec s c)).record = condRec s c := rfl
    simp only [movedCm, silent, calm, stays, recs, Bool.false_eq_true, if_false]
  rw [settle_quiet (.inl (by rw [silent]; exact Bool.false_ne_true)), movedPart, cm, if_pos rfl]

/-- A module that enters JOINING (R105). -/
theorem enterJoining_eq (l : Link) (k : Slot) (s : State) : enterJoining l k s =
    let c := s.links.get l
    let u := { s with links := s.links.set l (wakeSlc { c with
      modules := c.modules.set k { c.modules.get k with state := .joining, misses := 0, outstanding := none }
      poll := c.poll.set k (some .join) }) }
    if (moduleRec s l k).state = .broken then reportLink l u else u := by
  unfold enterJoining wake
  rw [updLink_updLink]
  rfl

/-! ## Each command (section 10.2) -/

section Commands

variable {s : State} {f : UpFrame} {rest : List UpFrame} (takes : Takes s f rest)
include takes

/-- A request of a command that answers without data. -/
theorem Takes.carriesPlain {c : Command} {run : List Byte → State → Carried} {args : List Byte} {status : Status}
    {u : State} (asks : parseRequest f = .command c args)
    (carried : run args (afterTaking rest s) = ⟨u, status, [], false⟩) :
    takeCommand c run s = .next (answered f status [] false u) :=
  takes.carries asks carried

/-- SET_ISOLATION with a number above 1 (R164). -/
theorem exec_setIsolation_bad {a : Byte} (asks : Asks f 15 [a]) (other : 1 < a.toNat) :
    exec .setIsolation s = .next (answered f .badArgument [] false (afterTaking rest s)) := by
  refine takes.carriesPlain (run := carrySetIsolation) asks.parse ?_
  unfold carrySetIsolation
  rw [show boolOf (u8 [a] 0) = none from boolOf_none other]
  rfl

/-- SET_ISOLATION (R110). -/
theorem exec_setIsolation {a : Byte} (asks : Asks f 15 [a]) (small : a.toNat ≤ 1) :
    exec .setIsolation s = .next (answered f .done [] false
      (rejoinAll { afterTaking rest s with mu := { s.mu with isolation := decide (a = 1) } })) := by
  refine takes.carriesPlain (run := carrySetIsolation) asks.parse ?_
  unfold carrySetIsolation
  rw [show boolOf (u8 [a] 0) = some (decide (a = 1)) from boolOf_byte small]
  rfl

/-- SET_STEER_ZERO (R12). -/
theorem exec_setSteerZero (asks : Asks f 16 []) :
    exec .setSteerZero s = .next (answered f .done [] false (afterSteer { s.vsb with pin := { s.vsb.pin with
      reference := s.vsb.pin.counter, referenced := true, phaseErrors := 0, angle := 0 } } (afterTaking rest s))) :=
  takes.carriesPlain (run := carrySetSteerZero) asks.parse (congrArg done (steerZero_eq _))

/-- CLEAR_NOTICE that names a number above 15 (R164). -/
theorem exec_clearNotice_bad {numbers : List Byte} (few : numbers.length ≤ 16) (asks : Asks f 18 numbers)
    (other : ∃ n ∈ numbers, 15 < n.toNat) :
    exec .clearNotice s = .next (answered f .badArgument [] false (afterTaking rest s)) := by
  have parse : parseRequest f = .command .clearNotice numbers := asks.parse.trans (if_pos (decide_eq_true few))
  obtain ⟨n, named, high⟩ := other
  refine takes.carriesPlain (run := carryClearNotice) parse (if_neg fun all => ?_)
  have low := of_decide_eq_true (List.all_eq_true.mp all n named)
  omega

/-- CLEAR_NOTICE (R147). -/
theorem exec_clearNotice {numbers : List Byte} (few : numbers.length ≤ 16) (asks : Asks f 18 numbers)
    (named : ∀ n ∈ numbers, n.toNat ≤ 15) :
    exec .clearNotice s = .next (answered f .done [] false (clearNotices numbers (afterTaking rest s))) := by
  have parse : parseRequest f = .command .clearNotice numbers := asks.parse.trans (if_pos (decide_eq_true few))
  exact takes.carriesPlain (run := carryClearNotice) parse
    (if_pos (List.all_eq_true.mpr fun n mem => decide_eq_true (named n mem)))

/-- RECOVER of no condition (R164). -/
theorem exec_recoverCondition_bad {n : Byte} (asks : Asks f 19 [0, n]) (other : 15 < n.toNat) :
    exec .recoverCondition s = .next (answered f .badArgument [] false (afterTaking rest s)) := by
  refine takes.carriesPlain (run := carryRecoverCondition) (args := [n]) asks.parse ?_
  unfold carryRecoverCondition
  rw [show condOf (u8 [n] 0) = none from condOf_none other]
  rfl

/-- RECOVER of a condition that is refused (R142). -/
theorem exec_recoverCondition_refused {n : Byte} {c : Cond} (asks : Asks f 19 [0, n]) (number : n.toNat = (condNo c).val)
    (refused : recoverRefused c (condRec s c) = true) :
    exec .recoverCondition s = .next (answered f .refusedState [] false { afterTaking rest s with
      cm := { s.cm with stats := bumpAt Stat.cmRecoversRefused s.cm.stats } }) := by
  refine takes.carriesPlain (run := carryRecoverCondition) (args := [n]) asks.parse ?_
  unfold carryRecoverCondition
  rw [show condOf (u8 [n] 0) = some c from condOf_condNo c _ number]
  exact if_pos refused

/-- And of one that is not: its record's move is settled (R142). -/
theorem exec_recoverCondition {n : Byte} {c : Cond} {m : Moved} (asks : Asks f 19 [0, n])
    (number : n.toNat = (condNo c).val) (allowed : recoverRefused c (condRec s c) = false)
    (move : recovered s.now c (s.mu.tables.condition.get (condNo c)) (condRec s c) = m) :
    exec .recoverCondition s = .next (answered f .done [] false (settle c m (afterTaking rest s))) := by
  refine takes.carriesPlain (run := carryRecoverCondition) (args := [n]) asks.parse ?_
  unfold carryRecoverCondition
  rw [show condOf (u8 [n] 0) = some c from condOf_condNo c _ number, ← move]
  exact if_neg (Bool.eq_false_iff.mp allowed)

/-- RECOVER of no module (R164). -/
theorem exec_recoverModule_bad {a b : Byte} (asks : Asks f 19 [1, a, b]) (other : 1 < a.toNat ∨ 3 < b.toNat) :
    exec .recoverModule s = .next (answered f .badArgument [] false (afterTaking rest s)) := by
  refine takes.carriesPlain (run := carryRecoverModule) (args := [a, b]) asks.parse ?_
  unfold carryRecoverModule
  rcases other with link | slot
  · rw [show linkOf (u8 [a, b] 0) = none from linkOf_none link]
    rfl
  · rw [show slotOf (u8 [a, b] 1) = none from slotOf_none slot]
    cases linkOf (u8 [a, b] 0) <;> rfl

/-- RECOVER of an absent module (R111). -/
theorem exec_recoverModule_absent {a b : Byte} {l : Link} {k : Slot} (asks : Asks f 19 [1, a, b])
    (link : a.toNat = linkNo l) (slot : b.toNat = k.val) (absent : effState (moduleRec s l k) = .absent) :
    exec .recoverModule s = .next (answered f .refusedState [] false (afterTaking rest s)) := by
  refine takes.carriesPlain (run := carryRecoverModule) (args := [a, b]) asks.parse ?_
  unfold carryRecoverModule
  rw [show linkOf (u8 [a, b] 0) = some l from linkOf_linkNo l _ link,
    show slotOf (u8 [a, b] 1) = some k from slotOf_val k _ slot]
  exact if_pos absent

/-- And of one that is not (R105, R111). -/
theorem exec_recoverModule {a b : Byte} {l : Link} {k : Slot} (asks : Asks f 19 [1, a, b])
    (link : a.toNat = linkNo l) (slot : b.toNat = k.val) (present : effState (moduleRec s l k) ≠ .absent) :
    exec .recoverModule s = .next (answered f .done [] false (enterJoining l k (afterTaking rest s))) := by
  refine takes.carriesPlain (run := carryRecoverModule) (args := [a, b]) asks.parse ?_
  unfold carryRecoverModule
  rw [show linkOf (u8 [a, b] 0) = some l from linkOf_linkNo l _ link,
    show slotOf (u8 [a, b] 1) = some k from slotOf_val k _ slot]
  exact if_neg present

end Commands

/-- Settles O55, command by command. -/
theorem commandsOfOtherBlocksAreCarriedOut : Obligations.CommandsOfOtherBlocksAreCarriedOut := by
  intro s f rest takes t answers rejoined
  refine ⟨fun asks => takes.carriesPlain (run := carryHoldLow) asks.parse rfl,
    fun asks => takes.carriesPlain (run := carryReleaseHold) asks.parse rfl,
    fun a asks => ⟨exec_setIsolation_bad takes asks, fun small => ?_⟩, exec_setSteerZero takes,
    fun asks => takes.carriesPlain (run := carryClearTracks) asks.parse rfl,
    fun numbers few asks => ⟨exec_clearNotice_bad takes few asks, fun named => ?_⟩,
    fun n asks => ⟨exec_recoverCondition_bad takes asks, fun c number => ?_⟩,
    fun a b asks => ⟨exec_recoverModule_bad takes asks, fun l k link slot =>
      ⟨exec_recoverModule_absent takes asks link slot, fun present => ?_⟩⟩⟩
  · have links := rejoinAll_links { t with mu := { s.mu with isolation := decide (a = 1) } }
    obtain ⟨_, _, _, _, vsb, sa, tu, pb, du, cm, up, mu, _⟩ :=
      rejoinAll_keeps { t with mu := { s.mu with isolation := decide (a = 1) } }
    exact ⟨_, exec_setIsolation takes asks small, mu, fun l => (links l).1, fun l => (links l).2.1,
      fun l => (links l).2.2, vsb, sa, tu, pb, du, cm, up⟩
  · have latched := clearNotices_latched (numbers := numbers) (s := t)
    obtain ⟨vsb, sa, tu, pb, links, du, mu, recs, action⟩ := clearNotices_keeps (numbers := numbers) (s := t)
    refine ⟨_, exec_clearNotice takes few asks named, fun i => ?_, recs, action, fun empty => ?_, fun some_ => ?_,
      vsb, sa, tu, pb, links, du, mu⟩
    · rw [latched]
      exact dropLatched_get numbers s.cm.latched i named
    · rw [latched] at empty
      rw [clearNotices_none empty]
      exact ⟨rfl, rfl, rfl⟩
    · rw [latched] at some_ ⊢
      rw [clearNotices_some some_]
      refine ⟨rfl, ?_, rfl⟩
      have stat : (if s.up.notice.isSome then Stat.cmNoticesReplaced else Stat.cmNotices)
          = if s.up.notice = none then Stat.cmNotices else Stat.cmNoticesReplaced := by
        cases s.up.notice
        case none => rfl
        case some => rfl
      exact congrArg (bumpAt · s.cm.stats) stat
  · intro r e
    refine ⟨fun other => ?_, fun faulted kind raw => ?_, fun faulted kind raw => ?_, fun faulted kind => ?_⟩
    · have allowed : recoverRefused c r = false := by simp [recoverRefused, other]
      have unmoved := exec_recoverCondition takes asks number allowed (recovered_other other)
      exact unmoved.trans (congrArg (fun u => Host.Outcome.next (answered f .done [] false u)) (settle_stay c t))
    · have refused : recoverRefused c r = true := by simp [recoverRefused, faulted, kind, raw]
      exact exec_recoverCondition_refused takes asks number refused
    · have allowed : recoverRefused c r = false := by simp [recoverRefused, raw]
      refine exec_recoverCondition takes asks number allowed ((recovered_level faulted kind raw).trans ?_)
      rw [← startTimer_eq]
      rfl
    · have allowed : recoverRefused c r = false := by simp [recoverRefused, kind]
      refine exec_recoverCondition takes asks number allowed ((recovered_event faulted kind).trans ?_)
      rw [← startTimer_eq]
      rfl
  · have carried := exec_recoverModule takes asks link slot present
    rw [enterJoining_eq] at carried
    exact carried

end Sys2Proof.Machine

/-! The entry checks of every table, field by field (R174, section 11.5). -/

namespace Sys2Proof.Machine

/-! ## One field after another -/

section Fields

variable {α β : Type} {bs : List Byte} {i : Nat}

/-- A decoder in steps passes where its first step does and the rest does on what it gave. -/
theorem isSome_bind_iff (x : Option α) (f : α → Option β) :
    (x.bind f).isSome = true ↔ ∃ a, x = some a ∧ (f a).isSome = true := by
  cases x <;> simp

/-- A step whose value no later check reads. -/
theorem exists_some_and (x : Option α) (p : Prop) : (∃ a, x = some a ∧ p) ↔ x.isSome = true ∧ p := by
  rw [exists_and_right, Option.isSome_iff_exists]

/-- A two-byte field and what follows. -/
theorem field2_bind (lo hi : Nat) (f : Nat → Option β) : ((field2 lo hi bs i).bind f).isSome = true
    ↔ lo ≤ u16 bs i ∧ u16 bs i ≤ hi ∧ (f (u16 bs i)).isSome = true := by
  simp only [isSome_bind_iff, field2_eq_some]
  constructor
  · rintro ⟨_, ⟨⟨low, high⟩, rfl⟩, next⟩
    exact ⟨low, high, next⟩
  · rintro ⟨low, high, next⟩
    exact ⟨_, ⟨⟨low, high⟩, rfl⟩, next⟩

/-- A one-byte field and what follows. -/
theorem field1_bind (lo hi : Nat) (f : Nat → Option β) : ((field1 lo hi bs i).bind f).isSome = true
    ↔ lo ≤ u8 bs i ∧ u8 bs i ≤ hi ∧ (f (u8 bs i)).isSome = true := by
  simp only [isSome_bind_iff, field1_eq_some]
  constructor
  · rintro ⟨_, ⟨⟨low, high⟩, rfl⟩, next⟩
    exact ⟨low, high, next⟩
  · rintro ⟨low, high, next⟩
    exact ⟨_, ⟨⟨low, high⟩, rfl⟩, next⟩

/-- A signed two-byte field and what follows. -/
theorem sfield2_bind (lo hi : Int) (f : Int → Option β) : ((sfield2 lo hi bs i).bind f).isSome = true
    ↔ lo ≤ s16 bs i ∧ s16 bs i ≤ hi ∧ (f (s16 bs i)).isSome = true := by
  simp only [isSome_bind_iff, sfield2_eq_some]
  constructor
  · rintro ⟨_, ⟨⟨low, high⟩, rfl⟩, next⟩
    exact ⟨low, high, next⟩
  · rintro ⟨low, high, next⟩
    exact ⟨_, ⟨⟨low, high⟩, rfl⟩, next⟩

/-- A signed one-byte field and what follows. -/
theorem sfield1_bind (lo hi : Int) (f : Int → Option β) : ((sfield1 lo hi bs i).bind f).isSome = true
    ↔ lo ≤ s8 bs i ∧ s8 bs i ≤ hi ∧ (f (s8 bs i)).isSome = true := by
  simp only [isSome_bind_iff, sfield1_eq_some]
  constructor
  · rintro ⟨_, ⟨⟨low, high⟩, rfl⟩, next⟩
    exact ⟨low, high, next⟩
  · rintro ⟨low, high, next⟩
    exact ⟨_, ⟨⟨low, high⟩, rfl⟩, next⟩

/-- The codes of a yes/no field. -/
theorem boolOf_isSome (n : Nat) : (boolOf n).isSome = true ↔ n ≤ 1 := by
  match n with
  | 0 | 1 => simp [boolOf]
  | k + 2 => simp [boolOf_none (n := k + 2) (by omega)]

/-- A last check. -/
theorem keepIf_isSome (ok : Bool) (x : α) : (keepIf ok x).isSome = true ↔ ok = true := by
  cases ok <;> simp [keepIf]

end Fields

/-! ## Each decoder -/

section Decoders

variable (bs : List Byte)

/-- Breakpoints rise strictly within 1..7200 (R73). -/
theorem decodeBreakpoints_isSome (c : CurveTable) : (decodeBreakpoints bs c).isSome = true
    ↔ 1 ≤ u16 bs 0 ∧ u16 bs 0 < u16 bs 2 ∧ u16 bs 2 < u16 bs 4 ∧ u16 bs 4 < u16 bs 6 ∧ u16 bs 6 ≤ 7200 := by
  simp only [decodeBreakpoints, Option.bind_eq_bind, field2_bind, keepIf_isSome, Bool.and_eq_true, decide_eq_true_eq]
  omega

/-- A speed band (R73). -/
theorem decodeBand_isSome : (decodeBand bs).isSome = true
    ↔ u16 bs 0 ≤ 2000 ∧ ∀ k < 9, -150 ≤ s16 bs (2 + 2 * k) ∧ s16 bs (2 + 2 * k) ≤ 150 := by
  have within_ : (decodeSwivels bs).isSome = true ↔ ∀ k < 9, -150 ≤ s16 bs (2 + 2 * k) ∧ s16 bs (2 + 2 * k) ≤ 150 := by
    simp only [decodeSwivels, keepIf_isSome, List.all_eq_true, Row.mem_cells, within_iff]
    constructor
    · intro all k small
      exact all _ ⟨⟨k, small⟩, Row.get_tabulate ..⟩
    · rintro all _ ⟨i, rfl⟩
      rw [Row.get_tabulate]
      exact all i.val i.isLt
  simp only [decodeBand, Option.bind_eq_bind, field2_bind, isSome_bind_iff (decodeSwivels _), ← Option.isSome_iff_exists, within_,
    Option.isSome_some, Nat.zero_le, true_and, and_true]

/-- A Class Policy entry (R37). -/
theorem decodePolicy_isSome : (decodePolicy bs).isSome = true
    ↔ u8 bs 0 ≤ 15 ∧ 1 ≤ u8 bs 1 ∧ u8 bs 1 ≤ 8 ∧ u8 bs 2 ≤ 1 ∧ u16 bs 3 ≤ 5000 ∧ u8 bs 5 ≤ 100 ∧ u8 bs 6 ≤ 100
      ∧ u8 bs 7 ≤ 100 ∧ u8 bs 8 ≤ 100 ∧ u8 bs 10 ≤ 1 ∧ u8 bs 11 ≤ 7 ∧ u8 bs 12 ≤ 20 := by
  simp only [decodePolicy, Option.bind_eq_bind, field1_bind, field2_bind, isSome_bind_iff (boolOf _), exists_some_and,
    boolOf_isSome, Option.isSome_some, Nat.zero_le, true_and, and_true]

/-- A Margin distance band (R84). -/
theorem decodeMarginBand_isSome : (decodeMarginBand bs).isSome = true ↔ u16 bs 0 ≤ 1000 ∧ u8 bs 2 ≤ 100 := by
  simp only [decodeMarginBand, Option.bind_eq_bind, field1_bind, field2_bind, Option.isSome_some, Nat.zero_le,
    true_and, and_true]

/-- A Fixed Window entry (R87). -/
theorem decodeWindow_isSome : (decodeWindow bs).isSome = true
    ↔ u8 bs 0 ≤ 2 ∧ -400 ≤ s16 bs 1 ∧ s16 bs 1 ≤ s16 bs 3 ∧ s16 bs 3 ≤ 400 ∧ -100 ≤ s8 bs 6 ∧ s8 bs 6 ≤ s8 bs 5
      ∧ s8 bs 5 ≤ 100 ∧ u8 bs 7 ≤ 1 := by
  simp only [decodeWindow, Option.bind_eq_bind, sfield1_bind, sfield2_bind, isSome_bind_iff (windowLampOf _),
    isSome_bind_iff (windowKindOf _), exists_some_and, windowLampOf_isSome, windowKindOf_isSome, keepIf_isSome,
    Bool.and_eq_true, decide_eq_true_eq]
  omega

/-- A Condition Table entry of a level condition (R136). -/
theorem decodeCondition_level_isSome : (decodeCondition .level bs).isSome = true
    ↔ u8 bs 0 ≤ 2 ∧ u8 bs 5 ≤ 1 ∧ u8 bs 6 ≤ 3 ∧ u16 bs 1 ≤ 10000 ∧ u16 bs 3 ≤ 10000 := by
  simp only [decodeCondition, Option.bind_eq_bind, field2_bind, isSome_bind_iff (reportOf _),
    isSome_bind_iff (boolOf _), isSome_bind_iff (actionOf _), exists_some_and, reportOf_isSome, boolOf_isSome,
    actionOf_isSome, Option.isSome_some, and_true, ← Option.isSome_iff_exists]
  omega

/-- And of an event condition. -/
theorem decodeCondition_event_isSome : (decodeCondition .event bs).isSome = true
    ↔ u8 bs 0 ≤ 2 ∧ u8 bs 5 ≤ 1 ∧ u8 bs 6 ≤ 3 ∧ 1 ≤ u16 bs 1 ∧ u16 bs 1 ≤ 255 ∧ 10 ≤ u16 bs 3 ∧ u16 bs 3 ≤ 10000 := by
  simp only [decodeCondition, Option.bind_eq_bind, field2_bind, isSome_bind_iff (reportOf _),
    isSome_bind_iff (boolOf _), isSome_bind_iff (actionOf _), exists_some_and, reportOf_isSome, boolOf_isSome,
    actionOf_isSome, Option.isSome_some, and_true, ← Option.isSome_iff_exists]
  omega

/-- The Vehicle Parameters (R3). -/
theorem decodeVehicle_isSome : (decodeVehicle bs).isSome = true
    ↔ (∀ k < 6, 50 ≤ u16 bs (2 * k) ∧ u16 bs (2 * k) ≤ 5000) ∧ u8 bs 12 ≤ 2 ∧ 2000 ≤ u16 bs 13 ∧ u16 bs 13 ≤ 25000
      ∧ 200 ≤ u16 bs 15 ∧ u16 bs 15 ≤ 5000 ∧ u8 bs 17 ≤ 2 ∧ 1 ≤ u8 bs 18 ∧ u8 bs 18 ≤ 64 ∧ 10 ≤ u16 bs 19
      ∧ u16 bs 19 ≤ 1000 := by
  have limits : (∀ k < 6, 50 ≤ u16 bs (2 * k) ∧ u16 bs (2 * k) ≤ 5000)
      ↔ (50 ≤ u16 bs 0 ∧ u16 bs 0 ≤ 5000) ∧ (50 ≤ u16 bs 2 ∧ u16 bs 2 ≤ 5000) ∧ (50 ≤ u16 bs 4 ∧ u16 bs 4 ≤ 5000)
        ∧ (50 ≤ u16 bs 6 ∧ u16 bs 6 ≤ 5000) ∧ (50 ≤ u16 bs 8 ∧ u16 bs 8 ≤ 5000)
        ∧ (50 ≤ u16 bs 10 ∧ u16 bs 10 ≤ 5000) := by
    constructor
    · intro all
      exact ⟨all 0 (by omega), all 1 (by omega), all 2 (by omega), all 3 (by omega), all 4 (by omega), all 5 (by omega)⟩
    · rintro ⟨zero, one, two, three, four, five⟩ k small
      match k with
      | 0 => exact zero
      | 1 => exact one
      | 2 => exact two
      | 3 => exact three
      | 4 => exact four
      | 5 => exact five
  simp only [limits, decodeVehicle, Option.bind_eq_bind, field1_bind, field2_bind, isSome_bind_iff (sourceOf _),
    exists_some_and, sourceOf_isSome, Option.isSome_some, and_true, and_assoc]

/-- The Build Parameters (R91). -/
theorem decodeBuild_isSome : (decodeBuild bs).isSome = true
    ↔ 1 ≤ u8 bs 0 ∧ u8 bs 0 ≤ 50 ∧ 1 ≤ u8 bs 1 ∧ 1 ≤ u8 bs 2 ∧ 1 ≤ u8 bs 4 ∧ u8 bs 4 ≤ 7 := by
  have byte (i : Nat) : u8 bs i ≤ 255 := Nat.le_of_lt_succ (BitVec.isLt _)
  simp only [decodeBuild, Option.bind_eq_bind, field1_bind, byte, Option.isSome_some, true_and, and_true]

/-- A Filter Table entry (R156). -/
theorem decodeFilter_isSome : (decodeFilter bs).isSome = true
    ↔ u8 bs 0 ≤ 1 ∧ u16 bs 1 ≤ 1023 ∧ u16 bs 3 ≤ 1023 ∧ u8 bs 5 ≤ 5 := by
  simp only [decodeFilter, Option.bind_eq_bind, field2_bind, isSome_bind_iff (boolOf _),
    isSome_bind_iff (filterActionOf _), exists_some_and, boolOf_isSome, filterActionOf_isSome, Option.isSome_some,
    Nat.zero_le, true_and, and_true, ← Option.isSome_iff_exists]

/-- A Segment Map entry (R71). -/
theorem decodeSegMap_isSome : (decodeSegMap bs).isSome = true
    ↔ -400 ≤ s16 bs 0 ∧ s16 bs 0 ≤ 400 ∧ 5 ≤ u8 bs 2 ∧ u8 bs 2 ≤ 40 ∧ -100 ≤ s8 bs 3 ∧ s8 bs 3 ≤ 100 ∧ 5 ≤ u8 bs 4
      ∧ u8 bs 4 ≤ 40 := by
  simp only [decodeSegMap, Option.bind_eq_bind, field1_bind, sfield1_bind, sfield2_bind, Option.isSome_some, and_true]

/-- Mode entry 0 (R70). -/
theorem decodeThresholds_isSome (t : ModeTable) : (decodeThresholds bs t).isSome = true
    ↔ u16 bs 0 ≤ 2000 ∧ u16 bs 2 ≤ 2000 ∧ u8 bs 4 ≤ 200 ∧ 1 ≤ u8 bs 5 ∧ u8 bs 5 ≤ 8 ∧ 1 ≤ u8 bs 6 ∧ u8 bs 6 ≤ 25 := by
  simp only [decodeThresholds, Option.bind_eq_bind, field1_bind, field2_bind, Option.isSome_some, Nat.zero_le,
    true_and, and_true]

/-- Mode entries 1 to 6. -/
theorem decodeModeRow_isSome : (decodeModeRow bs).isSome = true ↔ u8 bs 0 ≤ 7 ∧ u8 bs 1 ≤ 1 := by
  simp only [decodeModeRow, Option.bind_eq_bind, field1_bind, isSome_bind_iff (boolOf _), ← Option.isSome_iff_exists,
    boolOf_isSome, Option.isSome_some, Nat.zero_le, true_and, and_true]

/-- The Link Parameters (R119). -/
theorem decodeLink_isSome : (decodeLink bs).isSome = true
    ↔ 20 ≤ u16 bs 0 ∧ u16 bs 0 ≤ 1000 ∧ 1 ≤ u8 bs 2 ∧ u8 bs 2 ≤ 20 ∧ 1 ≤ u8 bs 3 ∧ u8 bs 3 ≤ 15 ∧ u8 bs 4 ≤ 1
      ∧ u8 bs 5 ≤ 1 ∧ u8 bs 6 ≤ 2 ∧ 2 ≤ u8 bs 7 ∧ u8 bs 7 ≤ 50 ∧ 50 ≤ u16 bs 8 ∧ u16 bs 8 ≤ 1000 ∧ 20 ≤ u8 bs 10
      ∧ u8 bs 10 ≤ 200 := by
  simp only [decodeLink, Option.bind_eq_bind, field1_bind, field2_bind, isSome_bind_iff (boolOf _),
    isSome_bind_iff (parkOf _), isSome_bind_iff (memberOf _), exists_some_and, boolOf_isSome, parkOf_isSome,
    memberOf_isSome, Option.isSome_some, and_true]

/-- Whether a window fits, spelled out (R101). -/
theorem windowFits_iff (e : ModuleEntry) : windowFits e = true ↔ 1 ≤ e.rowCount ∧ e.firstRow + e.rowCount ≤ 4
    ∧ 1 ≤ e.columnCount ∧ e.firstColumn + e.columnCount ≤ 24 ∧ e.rowCount * e.columnCount ≤ 48 := by
  have size : e.rowCount * e.columnCount = windowSize e := rfl
  simp only [windowFits, natWithin, size, Bool.and_eq_true, decide_eq_true_eq]
  omega

/-- Whether it overlaps that of another present slot. -/
theorem overlapsOther_iff (rows : Row 4 ModuleEntry) (k : Slot) (e : ModuleEntry) : overlapsOther rows k e = false
    ↔ ∀ j : Slot, j ≠ k → (rows.get j).present = true → WindowsApart (rows.get j) e := by
  have every : ∀ j : Slot, j ∈ [(0 : Slot), 1, 2, 3] := by decide
  simp only [overlapsOther, List.any_eq_false, Bool.and_eq_true, decide_eq_true_eq, windowsApart_iff, not_and,
    Bool.not_eq_true]
  exact ⟨fun apart j other present => apart j (every j) ⟨other, present⟩, fun apart j _ other => apart j other.1 other.2⟩

/-- A Module Table entry (R101). -/
theorem decodeModule_isSome (rows : Row 4 ModuleEntry) (k : Slot) : (decodeModule rows k bs).isSome = true
    ↔ u8 bs 0 ≤ 1 ∧ (u8 bs 0 = 1 →
      1 ≤ u8 bs 2 ∧ u8 bs 1 + u8 bs 2 ≤ 4 ∧ 1 ≤ u8 bs 4 ∧ u8 bs 3 + u8 bs 4 ≤ 24 ∧ u8 bs 2 * u8 bs 4 ≤ 48
        ∧ ∀ j : Slot, j ≠ k → (rows.get j).present = true →
          WindowsApart (rows.get j) ⟨true, u8 bs 1, u8 bs 2, u8 bs 3, u8 bs 4⟩) := by
  simp only [decodeModule, Option.bind_eq_bind, isSome_bind_iff, boolOf_eq_some, keepIf_isSome, Bool.or_eq_true,
    Bool.and_eq_true, Bool.not_eq_true', windowFits_iff, overlapsOther_iff]
  constructor
  · rintro ⟨present, code, checks⟩
    cases present
    case false => exact ⟨by simp [code], fun one => by simp [code] at one⟩
    case true =>
      rcases checks with absent | ⟨⟨rows_, rowEnd, columns, columnEnd, size⟩, apart⟩
      · cases absent
      · exact ⟨by simp [code], fun _ => ⟨rows_, rowEnd, columns, columnEnd, size, apart⟩⟩
  · rintro ⟨small, checks⟩
    by_cases one : u8 bs 0 = 1
    · obtain ⟨rows_, rowEnd, columns, columnEnd, size, apart⟩ := checks one
      exact ⟨true, one, .inr ⟨⟨rows_, rowEnd, columns, columnEnd, size⟩, apart⟩⟩
    · exact ⟨false, by simp; omega, .inl rfl⟩

end Decoders

/-! ## Each table (R174) -/

/-- The event conditions by number (section 8.1). -/
theorem condKind_event (c : Cond) : condKind c = .event ↔ (condNo c).val = 1 ∨ (condNo c).val = 2 ∨ (condNo c).val = 3
    ∨ (condNo c).val = 12 ∨ (condNo c).val = 15 := by
  cases c <;> decide

/-- Every number below 16 is a condition's. -/
theorem condOf_some {n : Nat} (small : n < 16) : ∃ c, condOf n = some c ∧ (condNo c).val = n := by
  have numbered : ∀ i : Fin 16, ∃ c ∈ allConds, condNo c = i := by decide
  obtain ⟨c, _, number⟩ := numbered ⟨n, small⟩
  have value : (condNo c).val = n := congrArg Fin.val number
  exact ⟨c, condOf_condNo c n value.symm, value⟩

/-- An entry is written just where its bytes pass the checks of its table. -/
theorem writeEntry_isSome {id : TableId} {n : Nat} (small : n < entryCount id) (bs : List Byte) (t : Tables) :
    (writeEntry id n bs t).isSome = true ↔ EntryPasses id n bs t := by
  cases id <;> simp only [writeEntry, EntryPasses, Option.isSome_map]
  case curve =>
    split
    · rw [Option.isSome_map, decodeBreakpoints_isSome]
    · rw [Option.isSome_map, decodeBand_isSome]
  case classPolicy => rw [decodePolicy_isSome]
  case margin =>
    by_cases last : n = 4
    · have field : (field1 0 100 bs 2).isSome = true ↔ u8 bs 2 ≤ 100 := by
        simp only [Option.isSome_iff_exists, field1_eq_some, Nat.zero_le, true_and, exists_and_left, exists_eq, and_true]
      rw [if_pos last, Option.isSome_map, field]
      simp [last]
    · rw [if_neg last, Option.isSome_map, decodeMarginBand_isSome]
      simp [last]
  case window => rw [decodeWindow_isSome]
  case derate => exact ⟨fun _ => trivial, fun _ => rfl⟩
  case condition =>
    obtain ⟨c, found, number⟩ := condOf_some small
    have kinds := condKind_event c
    rw [number] at kinds
    rw [found, Option.bind_some, Option.isSome_map]
    split
    case isTrue event => rw [kinds.mpr event, decodeCondition_event_isSome]
    case isFalse level =>
      have kind : condKind c = .level := by
        cases kind : condKind c
        case level => rfl
        case event => exact absurd (kinds.mp kind) level
      rw [kind, decodeCondition_level_isSome]
  case vehicle => rw [decodeVehicle_isSome]
  case build => rw [decodeBuild_isSome]
  case filter => rw [decodeFilter_isSome]
  case segMap => rw [decodeSegMap_isSome]
  case modules =>
    have slot (j : Slot) : j ≠ Fin.ofNat 4 n ↔ j.val ≠ n % 4 := not_congr Fin.ext_iff
    simp only [decodeModule_isSome, slot]
    exact Iff.rfl
  case profile =>
    unfold writeProfile
    dsimp only
    split
    case isTrue edge => simp [edge, edgeOf_isSome]
    case isFalse row => simp [row]
  case mode =>
    split
    · rw [Option.isSome_map, decodeThresholds_isSome]
    · rw [Option.isSome_map, decodeModeRow_isSome]
  case link => rw [decodeLink_isSome]

end Sys2Proof.Machine

/-! The checks over whole tables, and the configuration entered, left and restarted from (R103, R173 to R177). -/

namespace Sys2Proof.Machine

/-! ## The checks over whole tables (R173, R174, R176) -/

/-- An entry that fails its entry check or its table check. -/
def EntryFails (t : Tables) (id : TableId) (n : Nat) : Prop :=
  n < entryCount id ∧ ¬(EntryPasses id n (entryLayout id n t) t ∧ BandRises id n t)

section Checks

variable {t : Tables} {id : TableId} {n : Nat}

/-- The bounds of bands rise. -/
theorem boundRises_iff : boundRises id t n = true ↔ BandRises id n t := by
  cases id
  case curve =>
    simp only [boundRises, BandRises, Bool.or_eq_true, decide_eq_true_eq]
    omega
  case margin =>
    simp only [boundRises, BandRises, Bool.or_eq_true, decide_eq_true_eq]
    omega
  all_goals exact ⟨fun _ => trivial, fun _ => rfl⟩

/-- An entry held in a table is checked as the bytes it is read as. -/
theorem entryChecks_iff (small : n < entryCount id) : (entryPasses id t n && boundRises id t n) = true
    ↔ EntryPasses id n (entryLayout id n t) t ∧ BandRises id n t := by
  rw [Bool.and_eq_true, boundRises_iff, entryPasses, entryBytes_eq_layout, writeEntry_isSome small]

/-- A table of which no entry fails. -/
theorem firstFailure_none : firstFailure id t = none ↔ ∀ n, ¬EntryFails t id n := by
  simp only [firstFailure, List.find?_eq_none, List.mem_range, Bool.not_eq_true', Bool.not_eq_false]
  exact forall_congr' fun n => ⟨fun checks fails => fails.2 ((entryChecks_iff fails.1).mp (checks fails.1)),
    fun sound small => (entryChecks_iff small).mpr (not_not.mp fun bad => sound ⟨small, bad⟩)⟩

/-- The first entry of a table that fails. -/
theorem firstFailure_some (first : firstFailure id t = some n) :
    EntryFails t id n ∧ ∀ m, EntryFails t id m → n ≤ m := by
  simp only [firstFailure, List.find?_range_eq_some, Bool.not_eq_true'] at first
  obtain ⟨bad, mem, before⟩ := first
  have small := List.mem_range.mp mem
  refine ⟨⟨small, fun sound => ?_⟩, fun m fails => Nat.le_of_not_lt fun less => ?_⟩
  · rw [(entryChecks_iff small).mpr sound] at bad
    cases bad
  · exact fails.2 ((entryChecks_iff fails.1).mp (Bool.not_inj (before m less)))

/-- No table of a list has an entry that fails. -/
theorem firstFailing_none {ids : List TableId} :
    firstFailing ids t = none ↔ ∀ id ∈ ids, ∀ n, ¬EntryFails t id n := by
  simp only [firstFailing, List.findSome?_eq_none_iff, Option.map_eq_none_iff, firstFailure_none]

/-- The first failing entry of tables in order of id. -/
theorem firstFailing_some {ids : List TableId} (sorted : ids.Pairwise fun i j => tableNo i < tableNo j)
    (first : firstFailing ids t = some (id, n)) :
    (id ∈ ids ∧ EntryFails t id n)
      ∧ ∀ j ∈ ids, ∀ m, EntryFails t j m → tableNo id < tableNo j ∨ (id = j ∧ n ≤ m) := by
  obtain ⟨before, i, after, split, found, none_⟩ := List.findSome?_eq_some_iff.mp first
  obtain ⟨n', own, pair⟩ := Option.map_eq_some_iff.mp found
  cases pair
  obtain ⟨fails, least⟩ := firstFailure_some own
  subst split
  refine ⟨⟨by simp, fails⟩, fun j mem m bad => ?_⟩
  have later := List.pairwise_append.mp sorted
  rcases List.mem_append.mp mem with early | rest
  · have clean := Option.map_eq_none_iff.mp (none_ j early)
    exact absurd bad (firstFailure_none.mp clean m)
  · rcases List.mem_cons.mp rest with rfl | late
    · exact .inr ⟨rfl, least m bad⟩
    · exact .inl (List.rel_of_pairwise_cons later.2.1 late)

end Checks

/-- The tables stand in order of id. -/
theorem allTables_sorted (among : TableId → Bool) :
    (allTables.filter among).Pairwise fun i j => tableNo i < tableNo j :=
  List.Pairwise.filter _ (by decide)

/-- Every table is among them. -/
theorem mem_tables (among : TableId → Bool) (i : TableId) : i ∈ allTables.filter among ↔ among i = true := by
  have every : i ∈ allTables := by cases i <;> decide
  rw [List.mem_filter, and_iff_right every]

/-- Two tables of one number are one. -/
theorem tableNo_inj {i j : TableId} (same : tableNo i = tableNo j) : i = j :=
  Option.some.inj (((tableOf_eq_iff i _).mpr rfl).symm.trans ((tableOf_eq_iff j _).mpr same))

/-- The first entry that fails, in order of table and entry. -/
theorem firstFailing_iff (among : TableId → Bool) (t : Tables) (i : TableId) (n : Nat) :
    firstFailing (allTables.filter among) t = some (i, n) ↔ (among i = true ∧ EntryFails t i n)
      ∧ ∀ j m, among j = true ∧ EntryFails t j m → tableNo i < tableNo j ∨ (i = j ∧ n ≤ m) := by
  have spec {i n} (first : firstFailing (allTables.filter among) t = some (i, n)) := firstFailing_some (allTables_sorted among) first
  simp only [mem_tables] at spec
  constructor
  · intro first
    obtain ⟨fails, least⟩ := spec first
    exact ⟨fails, fun j m bad => least j bad.1 m bad.2⟩
  · rintro ⟨fails, least⟩
    rcases found : firstFailing (allTables.filter among) t with _ | ⟨i', n'⟩
    case none => exact absurd fails.2 (firstFailing_none.mp found i ((mem_tables among i).mpr fails.1) n)
    case some =>
      obtain ⟨fails', least'⟩ := spec found
      rcases least i' n' fails' with less | ⟨rfl, low⟩
      · rcases least' i fails.1 n fails.2 with less' | ⟨rfl, _⟩
        · omega
        · omega
      · rcases least' i fails.1 n fails.2 with less' | ⟨_, low'⟩
        · omega
        · rw [Nat.le_antisymm low low']

/-! ## The segments no window drives (R176) -/

/-- A segment lies in no present slot's window. -/
theorem undriven_eq (rows : Row 4 ModuleEntry) : undriven rows = (List.finRange 96).countP fun i => decide (∀ k,
    (rows.get k).present = true → ¬((rows.get k).firstRow ≤ i.val / 24
      ∧ i.val / 24 < (rows.get k).firstRow + (rows.get k).rowCount ∧ (rows.get k).firstColumn ≤ i.val % 24
      ∧ i.val % 24 < (rows.get k).firstColumn + (rows.get k).columnCount)) := by
  have every : ∀ k : Slot, k ∈ [(0 : Slot), 1, 2, 3] := by decide
  unfold undriven
  refine List.countP_congr fun i _ => ?_
  simp only [Bool.not_eq_true', List.any_eq_false, Bool.and_eq_true, windowHolds, decide_eq_true_eq, not_and,
    and_assoc, every, true_imp_iff]
  exact Iff.rfl

/-! ## The configuration (R175 to R177) -/

section Configuration

variable {s : State} {f : UpFrame} {rest : List UpFrame}

/-- Whether the speed is known and low (R175). -/
theorem speedGate_iff (v : RecordField Nat) : speedGate v = true ↔ v.fresh = true ∧ ∃ x, v.value = some x ∧ x < 50 := by
  cases value : v.value <;> simp [speedGate, value]

/-- A link's controller as EXIT_CONFIG sets it up (R103, R122). -/
def setUpController (s : State) (l : Link) : Slc :=
  let c := s.links.get l
  let rows := s.mu.tables.modules.get l
  let modules := rows.map moduleSetUp
  let poll := rows.map pollSetUp
  let queue := c.patternQ.filter fun x => match x with
    | .block k _ _ => (rows.get k).present
    | .apply _ => true
  { c with
    modules := modules, poll := poll, patternQ := queue, sent := linkRaws s.mu.tables l modules
    tx := if c.tx = .idle ∧ (queue ≠ [] ∨ c.passQ ≠ [] ∨ ∃ k, poll.get k ≠ none) then .waking else c.tx }

/-- The part in RUN with its tracks cleared, before the links are set up (R176). -/
def configLeft (s : State) : State := { s with
  mu := { s.mu with config := .run, tablesDefault := false }
  tu := { s.tu with tracks := Row.fill 24 none } }

/-- What EXIT_CONFIG does (R103, R122, R176). -/
theorem exitConfig_eq (s : State) : exitConfig s = trigger { s with
    mu := { s.mu with config := .run, tablesDefault := false }
    tu := { s.tu with tracks := Row.fill 24 none }
    links := ⟨setUpController s .left, setUpController s .right⟩
    mail := { s.mail with
      levels := s.mail.levels ++ linkReports .left (setUpController s .left).sent
        ++ linkReports .right (setUpController s .right).sent } } := by
  have start : exitConfig s = trigger (setUpLink .right (setUpLink .left (configLeft s))) := rfl
  rw [start, setUpLink_eq .left, setUpLink_eq .right]
  rfl

variable (takes : Takes s f rest)
include takes

/-- ENTER_CONFIG where it may be (R175). -/
theorem exec_enterConfig (asks : Asks f 11 []) (run : s.mu.config = .run) (slow : speedGate s.vsb.speed = true) :
    exec .enterConfig s = .next (answered f .done [] false (trigger { afterTaking rest s with
      mu := { s.mu with staged := emptyStaging, commitPending := false, config := .config }
      mail := { s.mail with tears := s.mail.tears ++ [.enterConfig] } })) := by
  refine takes.carriesPlain (run := carryEnterConfig) asks.parse (if_pos ?_)
  exact Bool.and_eq_true_iff.mpr ⟨decide_eq_true run, slow⟩

/-- And where it is refused. -/
theorem exec_enterConfig_refused (asks : Asks f 11 []) (refused : s.mu.config = .config ∨ ¬speedGate s.vsb.speed = true) :
    exec .enterConfig s = .next (answered f .refusedState [] false (afterTaking rest s)) := by
  refine takes.carriesPlain (run := carryEnterConfig) asks.parse (if_neg fun enters => ?_)
  obtain ⟨run, slow⟩ := Bool.and_eq_true_iff.mp enters
  rcases refused with config | fast
  · cases (of_decide_eq_true run).symm.trans config
  · exact fast slow

/-- EXIT_CONFIG in RUN (R176). -/
theorem exec_exitConfig_refused (asks : Asks f 12 []) (run : s.mu.config = .run) :
    exec .exitConfig s = .next (answered f .refusedState [] false (afterTaking rest s)) := by
  refine takes.carriesPlain (run := carryExitConfig) asks.parse ?_
  have same : (afterTaking rest s).mu.config = .run := run
  unfold carryExitConfig
  rw [same]
  rfl

/-- EXIT_CONFIG that finds an entry that fails (R176). -/
theorem exec_exitConfig_bad {i : TableId} {n : Nat} (asks : Asks f 12 []) (config : s.mu.config = .config)
    (first : firstFailing allTables s.mu.tables = some (i, n)) : exec .exitConfig s
      = .next (answered f .badTable [BitVec.ofNat 8 (tableNo i), BitVec.ofNat 8 n] false (afterTaking rest s)) := by
  have same : (afterTaking rest s).mu.config = .config := config
  have found : firstFailing allTables (afterTaking rest s).mu.tables = some (i, n) := first
  refine takes.carries (run := carryExitConfig) (r := badTable i n (afterTaking rest s)) asks.parse ?_
  unfold carryExitConfig
  rw [same]
  dsimp only
  rw [found]

/-- EXIT_CONFIG that passes its checks (R176). -/
theorem exec_exitConfig (asks : Asks f 12 []) (config : s.mu.config = .config)
    (sound : firstFailing allTables s.mu.tables = none) : exec .exitConfig s = .next (answered f .done
      [BitVec.ofNat 8 (undriven s.mu.tables.modules.left), BitVec.ofNat 8 (undriven s.mu.tables.modules.right)] false
      (exitConfig (afterTaking rest s))) := by
  have same : (afterTaking rest s).mu.config = .config := config
  have found : firstFailing allTables (afterTaking rest s).mu.tables = none := sound
  refine takes.carries (run := carryExitConfig) (r := doneWith _ (exitConfig (afterTaking rest s))) asks.parse ?_
  unfold carryExitConfig
  rw [same]
  dsimp only
  rw [found]
  rfl

/-- RESTART in RUN (R177). -/
theorem exec_restart (asks : Asks f 20 []) (run : s.mu.config = .run) : exec .restart s
    = .next (answered f .done [] true { afterTaking rest s with mu := { s.mu with restartPending := true } }) := by
  have same : (afterTaking rest s).mu.config = .run := run
  refine takes.carries (run := carryRestart)
    (r := ⟨{ afterTaking rest s with mu := { s.mu with restartPending := true } }, .done, [], true⟩) asks.parse ?_
  unfold carryRestart
  rw [same]
  rfl

/-- And in CONFIG. -/
theorem exec_restart_refused (asks : Asks f 20 []) (config : s.mu.config = .config) :
    exec .restart s = .next (answered f .refusedState [] false (afterTaking rest s)) := by
  have same : (afterTaking rest s).mu.config = .config := config
  refine takes.carriesPlain (run := carryRestart) asks.parse ?_
  unfold carryRestart
  rw [same]
  rfl

end Configuration

/-- Settles O54: what passes the checks, and what follows. -/
theorem configurationIsEnteredLeftAndRestarted : Obligations.ConfigurationIsEnteredLeftAndRestarted := by
  refine ⟨fun s f rest takes => ?_, fun among x => ?_, undriven_eq⟩
  case refine_1 =>
    intro t slow
    refine ⟨fun asks => ⟨fun run low => ?_, fun refused => ?_⟩, fun asks => ⟨exec_exitConfig_refused takes asks,
      fun config => ?_⟩, fun asks => ⟨exec_restart takes asks, exec_restart_refused takes asks⟩⟩
    · exact exec_enterConfig takes asks run ((speedGate_iff _).mpr low)
    · exact exec_enterConfig_refused takes asks (refused.imp_right (mt (speedGate_iff _).mp))
    · cases first : firstFailing allTables s.mu.tables
      case some entry => exact exec_exitConfig_bad takes asks config first
      case none =>
        have left_ := exec_exitConfig takes asks config first
        rw [exitConfig_eq] at left_
        exact left_
  case refine_2 =>
    intro fails
    have same (i n) : fails i n ↔ among i = true ∧ EntryFails x i n := Iff.rfl
    refine ⟨?_, fun i n => ?_⟩
    · simp only [firstFailing_none, mem_tables, same, not_and]
      exact ⟨fun sound i n mem => sound i mem n, fun sound i mem n => sound i n mem⟩
    · exact firstFailing_iff among x i n

end Sys2Proof.Machine

/-! What an entry written is read back as (R171, R172, R180, section 11.5). -/

namespace Sys2Proof.Machine

/-! ## One field -/

section Fields

variable {bs : List Byte} {i : Nat}

/-- A list is the bytes it holds. -/
theorem bytes_eq {k : Nat} (size : bs.length = k) : (List.range k).map (fun i => bs.getD i 0) = bs := by
  refine List.ext_getElem (by simp [size]) fun i _ within_ => ?_
  simp [List.getElem?_eq_getElem within_]

/-- And its first bytes are those. -/
theorem bytes_take {k : Nat} (size : k ≤ bs.length) : (List.range k).map (fun i => bs.getD i 0) = bs.take k := by
  refine List.ext_getElem (by simp [size]) fun i within_ _ => ?_
  have inside : i < bs.length := Nat.lt_of_lt_of_le (by simpa using within_) size
  simp [List.getElem?_eq_getElem inside]

/-- A number of one byte. -/
theorem byte1_u8 (bs : List Byte) (i : Nat) : byte1 (u8 bs i) = [bs.getD i 0] := by
  unfold byte1 u8
  rw [BitVec.ofNat_toNat, BitVec.setWidth_eq]

/-- A number of two. -/
theorem bytes2_u16_at (bs : List Byte) (i : Nat) : bytes2 (u16 bs i) = [bs.getD i 0, bs.getD (i + 1) 0] :=
  bytes2_u16 (bs.getD i 0) (bs.getD (i + 1) 0) []

/-- A signed number of one byte. -/
theorem sbyte1_s8 (bs : List Byte) (i : Nat) : sbyte1 (s8 bs i) = [bs.getD i 0] := by
  unfold sbyte1 s8
  rw [BitVec.ofInt_toInt]

/-- A signed number of two. -/
theorem sbytes2_s16 (bs : List Byte) (i : Nat) : sbytes2 (s16 bs i) = [bs.getD i 0, bs.getD (i + 1) 0] := by
  have small : u16 bs i < 65536 := by
    have high : u8 bs i < 256 := BitVec.isLt _
    have low : u8 bs (i + 1) < 256 := BitVec.isLt _
    unfold u16
    omega
  rw [sbytes2, s16, BitVec.ofInt_toInt, BitVec.toNat_ofNat, Nat.mod_eq_of_lt small, bytes2_u16_at]

/-- A yes/no. -/
theorem flag1_of {b : Bool} (said : boolOf (u8 bs i) = some b) : flag1 b = [bs.getD i 0] := by
  rw [boolOf_eq_some] at said
  rw [← byte1_u8, said]
  cases b <;> rfl

/-- A code that names a value is that value's. -/
theorem byte1_code {α : Type} {number : α → Nat} {x : α} (code : u8 bs i = number x) :
    byte1 (number x) = [bs.getD i 0] := by
  rw [← code, byte1_u8]

end Fields

/-! ## One code (section 11.6) -/

section Codes

variable {n : Nat}

/-- Window lamp. -/
theorem windowLampOf_code {x : WindowLamp} (said : windowLampOf n = some x) : n = windowLampNo x := by
  unfold windowLampOf at said
  split at said <;> cases said <;> rfl

/-- Window kind. -/
theorem windowKindOf_code {x : WindowKind} (said : windowKindOf n = some x) : n = windowKindNo x := by
  unfold windowKindOf at said
  split at said <;> cases said <;> rfl

/-- Report field. -/
theorem reportOf_code {x : ReportAt} (said : reportOf n = some x) : n = reportNo x := by
  unfold reportOf at said
  split at said <;> cases said <;> rfl

/-- Action. -/
theorem actionOf_code {x : Action} (said : actionOf n = some x) : n = actionNo x := by
  unfold actionOf at said
  split at said <;> cases said <;> rfl

/-- Source. -/
theorem sourceOf_code {x : SourceChoice} (said : sourceOf n = some x) : n = sourceNo x := by
  unfold sourceOf at said
  split at said <;> cases said <;> rfl

/-- Filter action. -/
theorem filterActionOf_code {x : FilterAction} (said : filterActionOf n = some x) : n = filterActionNo x := by
  unfold filterActionOf at said
  split at said <;> cases said <;> rfl

/-- Edge rule. -/
theorem edgeOf_code {x : EdgeRule} (said : edgeOf n = some x) : n = edgeNo x := by
  unfold edgeOf at said
  split at said <;> cases said <;> rfl

/-- Park mode. -/
theorem parkOf_code {x : ParkMode} (said : parkOf n = some x) : n = parkNo x := by
  unfold parkOf at said
  split at said <;> cases said <;> rfl

/-- Member. -/
theorem memberOf_code {x : Member} (said : memberOf n = some x) : n = memberNo x := by
  unfold memberOf at said
  split at said <;> cases said <;> rfl

end Codes

/-! ## One entry: its fields are its bytes -/

section Entries

variable {bs : List Byte}

/-- Breakpoints: bands stay, and the fields are the first eight bytes. -/
theorem decodeBreakpoints_back {c d : CurveTable} (said : decodeBreakpoints bs c = some d) : d.bands = c.bands
    ∧ bytes2 d.b1 ++ bytes2 d.b2 ++ bytes2 d.b3 ++ bytes2 d.b4 = (List.range 8).map fun i => bs.getD i 0 := by
  simp only [decodeBreakpoints, Option.bind_eq_bind, Option.bind_eq_some_iff, field2_eq_some, keepIf_eq_some] at said
  obtain ⟨_, ⟨_, rfl⟩, _, ⟨_, rfl⟩, _, ⟨_, rfl⟩, _, ⟨_, rfl⟩, _, rfl⟩ := said
  refine ⟨rfl, ?_⟩
  simp only [bytes2_u16_at]
  rfl

/-- A Class Policy entry. -/
theorem decodePolicy_back {p : ClassPolicy} (size : bs.length = 13) (said : decodePolicy bs = some p) :
    encodePolicy p = bs := by
  simp only [decodePolicy, Option.bind_eq_bind, Option.bind_eq_some_iff, field1_eq_some, field2_eq_some,
    Option.some.injEq] at said
  obtain ⟨_, ⟨_, rfl⟩, _, ⟨_, rfl⟩, _, shadow, _, ⟨_, rfl⟩, _, ⟨_, rfl⟩, _, ⟨_, rfl⟩, _, ⟨_, rfl⟩, _, ⟨_, rfl⟩, _, hard,
    _, ⟨_, rfl⟩, _, ⟨_, rfl⟩, rfl⟩ := said
  simp only [encodePolicy, byte1_u8, bytes2_u16_at, flag1_of shadow, flag1_of hard]
  exact bytes_eq size

/-- A Margin distance band. -/
theorem decodeMarginBand_back {b : MarginBand} (size : bs.length = 3) (said : decodeMarginBand bs = some b) :
    bytes2 b.bound ++ byte1 b.extra = bs := by
  simp only [decodeMarginBand, Option.bind_eq_bind, Option.bind_eq_some_iff, field1_eq_some, field2_eq_some,
    Option.some.injEq] at said
  obtain ⟨_, ⟨_, rfl⟩, _, ⟨_, rfl⟩, rfl⟩ := said
  simp only [byte1_u8, bytes2_u16_at]
  exact bytes_eq size

/-- A Fixed Window entry. -/
theorem decodeWindow_back {w : FixedWindow} (size : bs.length = 10) (said : decodeWindow bs = some w) :
    encodeWindow w = bs := by
  simp only [decodeWindow, Option.bind_eq_bind, Option.bind_eq_some_iff, sfield1_eq_some, sfield2_eq_some,
    keepIf_eq_some] at said
  obtain ⟨_, lamp, _, ⟨_, rfl⟩, _, ⟨_, rfl⟩, _, ⟨_, rfl⟩, _, ⟨_, rfl⟩, _, kind, _, rfl⟩ := said
  simp only [encodeWindow, byte1_u8, sbyte1_s8, sbytes2_s16, byte1_code (windowLampOf_code lamp),
    byte1_code (windowKindOf_code kind)]
  exact bytes_eq size

/-- A Condition Table entry. -/
theorem decodeCondition_back {kind : CondKind} {e : CondEntry} (size : bs.length = 7)
    (said : decodeCondition kind bs = some e) : encodeCondition e = bs := by
  have fields : ∃ report latching action, reportOf (u8 bs 0) = some report ∧ boolOf (u8 bs 5) = some latching
      ∧ actionOf (u8 bs 6) = some action ∧ e = ⟨report, u16 bs 1, u16 bs 3, latching, action⟩ := by
    cases kind <;>
      simp only [decodeCondition, Option.bind_eq_bind, Option.bind_eq_some_iff, field2_eq_some, Option.some.injEq] at said
    case level | event =>
      obtain ⟨report, reported, _, ⟨_, rfl⟩, _, ⟨_, rfl⟩, latching, latched, action, acts, rfl⟩ := said
      exact ⟨report, latching, action, reported, latched, acts, rfl⟩
  obtain ⟨_, _, _, report, latching, action, rfl⟩ := fields
  simp only [encodeCondition, bytes2_u16_at, byte1_code (reportOf_code report), flag1_of latching,
    byte1_code (actionOf_code action)]
  exact bytes_eq size

/-- The Vehicle Parameters. -/
theorem decodeVehicle_back {v : VehicleParams} (size : bs.length = 21) (said : decodeVehicle bs = some v) :
    encodeVehicle v = bs := by
  simp only [decodeVehicle, Option.bind_eq_bind, Option.bind_eq_some_iff, field1_eq_some, field2_eq_some,
    Option.some.injEq] at said
  obtain ⟨_, ⟨_, rfl⟩, _, ⟨_, rfl⟩, _, ⟨_, rfl⟩, _, ⟨_, rfl⟩, _, ⟨_, rfl⟩, _, ⟨_, rfl⟩, _, speed, _, ⟨_, rfl⟩, _,
    ⟨_, rfl⟩, _, steer, _, ⟨_, rfl⟩, _, ⟨_, rfl⟩, rfl⟩ := said
  simp only [encodeVehicle, byte1_u8, bytes2_u16_at, byte1_code (sourceOf_code speed), byte1_code (sourceOf_code steer)]
  exact bytes_eq size

/-- The Build Parameters. -/
theorem decodeBuild_back {b : BuildParams} (size : bs.length = 5) (said : decodeBuild bs = some b) :
    byte1 b.swivelStep ++ byte1 b.upStep ++ byte1 b.downStep ++ byte1 b.dimLevel ++ byte1 b.overtempBand = bs := by
  simp only [decodeBuild, Option.bind_eq_bind, Option.bind_eq_some_iff, field1_eq_some, Option.some.injEq] at said
  obtain ⟨_, ⟨_, rfl⟩, _, ⟨_, rfl⟩, _, ⟨_, rfl⟩, _, ⟨_, rfl⟩, rfl⟩ := said
  simp only [byte1_u8]
  exact bytes_eq size

/-- A Filter Table entry. -/
theorem decodeFilter_back {f : FilterEntry} (size : bs.length = 6) (said : decodeFilter bs = some f) :
    flag1 f.enabled ++ bytes2 f.code.toNat ++ bytes2 f.mask.toNat ++ byte1 (filterActionNo f.action) = bs := by
  simp only [decodeFilter, Option.bind_eq_bind, Option.bind_eq_some_iff, field2_eq_some, Option.some.injEq] at said
  obtain ⟨_, enabled, _, ⟨⟨_, code⟩, rfl⟩, _, ⟨⟨_, mask⟩, rfl⟩, _, action, rfl⟩ := said
  have tenDigits {n : Nat} (small : n ≤ 1023) : (BitVec.ofNat 10 n).toNat = n := by
    rw [BitVec.toNat_ofNat, Nat.mod_eq_of_lt (by omega)]
  simp only [tenDigits code, tenDigits mask, bytes2_u16_at, flag1_of enabled, byte1_code (filterActionOf_code action)]
  exact bytes_eq size

/-- A Mode Table's thresholds: the rows stay. -/
theorem decodeThresholds_back {t u : ModeTable} (size : bs.length = 7) (said : decodeThresholds bs t = some u) :
    getModeRow u = getModeRow t ∧ bytes2 u.townSpeed ++ bytes2 u.motorwaySpeed ++ byte1 u.hysteresis
      ++ byte1 u.adverseThreshold ++ byte1 u.townThreshold = bs := by
  simp only [decodeThresholds, Option.bind_eq_bind, Option.bind_eq_some_iff, field1_eq_some, field2_eq_some,
    Option.some.injEq] at said
  obtain ⟨_, ⟨_, rfl⟩, _, ⟨_, rfl⟩, _, ⟨_, rfl⟩, _, ⟨_, rfl⟩, _, ⟨_, rfl⟩, rfl⟩ := said
  refine ⟨rfl, ?_⟩
  simp only [byte1_u8, bytes2_u16_at]
  exact bytes_eq size

/-- A mode's row. -/
theorem decodeModeRow_back {r : ModeRow} (said : decodeModeRow bs = some r) :
    byte1 r.profile.val ++ flag1 r.shadowsApply = (List.range 2).map fun i => bs.getD i 0 := by
  simp only [decodeModeRow, Option.bind_eq_bind, Option.bind_eq_some_iff, field1_eq_some, Option.some.injEq] at said
  obtain ⟨_, ⟨⟨_, small⟩, rfl⟩, _, shadows, rfl⟩ := said
  have number : (Fin.ofNat 8 (u8 bs 0)).val = u8 bs 0 := Nat.mod_eq_of_lt (by omega)
  simp only [number, byte1_u8, flag1_of shadows]
  rfl

/-- The Link Parameters. -/
theorem decodeLink_back {p : LinkParams} (size : bs.length = 11) (said : decodeLink bs = some p) :
    encodeLink p = bs := by
  simp only [decodeLink, Option.bind_eq_bind, Option.bind_eq_some_iff, field1_eq_some, field2_eq_some,
    Option.some.injEq] at said
  obtain ⟨_, ⟨_, rfl⟩, _, ⟨_, rfl⟩, _, ⟨_, rfl⟩, _, insistent, _, park, _, member, _, ⟨_, rfl⟩, _, ⟨_, rfl⟩, _, ⟨_, rfl⟩,
    rfl⟩ := said
  simp only [encodeLink, byte1_u8, bytes2_u16_at, flag1_of insistent, byte1_code (parkOf_code park),
    byte1_code (memberOf_code member)]
  exact bytes_eq size

/-- A Module Table entry. -/
theorem decodeModule_back {rows : Row 4 ModuleEntry} {k : Slot} {e : ModuleEntry} (size : bs.length = 5)
    (said : decodeModule rows k bs = some e) : encodeModule e = bs := by
  simp only [decodeModule, Option.bind_eq_bind, Option.bind_eq_some_iff, keepIf_eq_some] at said
  obtain ⟨_, present, _, rfl⟩ := said
  simp only [encodeModule, byte1_u8, flag1_of present]
  exact bytes_eq size

/-- The cells of a row given place by place. -/
theorem tabulate_cells {n : Nat} {α : Type} (f : Fin n → α) : (Row.tabulate f).cells = List.ofFn f := rfl

/-- A speed band. -/
theorem decodeBand_back {b : CurveBand} (size : bs.length = 20) (said : decodeBand bs = some b) :
    bytes2 b.bound ++ b.values.cells.flatMap sbytes2 = bs := by
  simp only [decodeBand, decodeSwivels, Option.bind_eq_bind, Option.bind_eq_some_iff, field2_eq_some, keepIf_eq_some,
    Option.some.injEq] at said
  obtain ⟨_, ⟨_, rfl⟩, _, ⟨_, rfl⟩, rfl⟩ := said
  have values : (List.ofFn fun i : Fin 9 => s16 bs (2 + 2 * i.val)).flatMap sbytes2
      = (List.range 18).map fun i => bs.getD (2 + i) 0 := by
    simp only [List.ofFn_succ, List.ofFn_zero, List.flatMap_cons, List.flatMap_nil, sbytes2_s16]
    rfl
  rw [tabulate_cells, values, bytes2_u16_at]
  exact bytes_eq size

/-- A profile row. -/
theorem decodeProfileRow_back (size : bs.length = 24) : (decodeProfileRow bs).cells.flatMap byte1 = bs := by
  have levels : (List.ofFn fun i : Fin 24 => u8 bs i.val).flatMap byte1 = (List.range 24).map fun i => bs.getD i 0 := by
    simp only [List.ofFn_succ, List.ofFn_zero, List.flatMap_cons, List.flatMap_nil, byte1_u8]
    rfl
  rw [decodeProfileRow, tabulate_cells, levels]
  exact bytes_eq size

/-- A byte is its eight digits, the first most significant. -/
theorem byte_digits (b : Byte) :
    (List.finRange 8).foldl (fun (x : Byte) k => (x <<< 1) ||| (if b.getLsbD (7 - k.val) then 1 else 0)) 0 = b := by
  revert b
  decide

/-- A Segment Map entry. -/
theorem decodeSegMap_back {g : SegMapEntry} (size : bs.length = 17) (said : decodeSegMap bs = some g) :
    encodeSegMap g = bs := by
  simp only [decodeSegMap, Option.bind_eq_bind, Option.bind_eq_some_iff, field1_eq_some, sfield1_eq_some,
    sfield2_eq_some, Option.some.injEq] at said
  obtain ⟨_, ⟨_, rfl⟩, _, ⟨_, rfl⟩, _, ⟨_, rfl⟩, _, ⟨_, rfl⟩, rfl⟩ := said
  have zones : zoneBytes (Row.tabulate (zoneBit bs)) = (List.range 12).map fun i => bs.getD (5 + i) 0 := by
    have zone (b : Fin 12) (k : Fin 8) : (Row.tabulate (zoneBit bs)).get ⟨8 * b.val + k.val, by omega⟩
        = (bs.getD (5 + b.val) 0).getLsbD (7 - k.val) := by
      have place : (8 * b.val + k.val) / 8 = b.val := by omega
      have digit : (8 * b.val + k.val) % 8 = k.val := by omega
      rw [Row.get_tabulate, zoneBit]
      simp only [place, digit]
    simp only [zoneBytes, zone, byte_digits]
    rfl
  simp only [encodeSegMap, zones, byte1_u8, sbyte1_s8, sbytes2_s16]
  exact bytes_eq size

end Entries

/-! ## What an entry written leaves of its table and of the others -/

section Written

variable {id : TableId} {n : Nat} {bs : List Byte} {t u : Tables}

/-- A write into one table leaves the bytes of every other. -/
theorem OnlyTable.layout (only : OnlyTable id t u) {j : TableId} (other : j ≠ id) (m : Nat) :
    entryLayout j m u = entryLayout j m t := by
  cases id
  all_goals
    simp only [OnlyTable] at only
    rw [only]
    cases j
  any_goals exact absurd rfl other
  all_goals rfl

/-- The bytes of an entry's fields that fill it are what it is read as. -/
theorem entryLayout_full (size : bs.length = entrySize id) (fields : entryFields id n u = bs) :
    entryLayout id n u = bs := by
  rw [← entryBytes_eq_layout, entryBytes, fields]
  exact pad_full bs _ (Nat.le_of_eq size.symm)

/-- The bytes of an entry's fields and the pads after them. -/
theorem entryLayout_padded {fields : List Byte} (said : entryFields id n u = fields) :
    entryLayout id n u = fields ++ List.replicate (entrySize id - fields.length) 0 := by
  rw [← entryBytes_eq_layout, entryBytes, said]

/-- The same fields are read as the same bytes. -/
theorem entryLayout_congr (same : entryFields id n u = entryFields id n t) : entryLayout id n u = entryLayout id n t := by
  rw [← entryBytes_eq_layout, ← entryBytes_eq_layout, entryBytes, entryBytes, same]

/-- Two places of a row are two. -/
theorem ofNat_ne {k m n : Nat} [NeZero k] (few : m < k) (few' : n < k) (other : m ≠ n) :
    Fin.ofNat k m ≠ Fin.ofNat k n := by
  intro same
  have values : m % k = n % k := congrArg Fin.val same
  rw [Nat.mod_eq_of_lt few, Nat.mod_eq_of_lt few'] at values
  exact other values

/-- An entry written is read back with its pads 0, and the others of its table are as they were. -/
def ReadsBack (id : TableId) (n : Nat) (bs : List Byte) (t u : Tables) : Prop :=
  entryLayout id n u = padsCleared id n bs ∧ ∀ m < entryCount id, m ≠ n → entryLayout id m u = entryLayout id m t

/-- The Curve Table. -/
theorem curve_readsBack (few : n < 9) (size : bs.length = 20) (written : writeEntry .curve n bs t = some u) :
    ReadsBack .curve n bs t u := by
  simp only [writeEntry] at written
  split at written
  case isTrue breakpoints =>
    obtain ⟨c, said, rfl⟩ := Option.map_eq_some_iff.mp written
    obtain ⟨bands, fields⟩ := decodeBreakpoints_back said
    subst breakpoints
    refine ⟨?_, fun m _ other => entryLayout_congr ?_⟩
    · have first : entryFields .curve 0 { t with curve := c } = bs.take 8 := by
        rw [← bytes_take (by omega), ← fields]
        rfl
      rw [entryLayout_padded first, padsCleared, if_pos rfl, List.length_take, size]
      rfl
    · simp only [entryFields, encodeCurve, if_neg other, bands]
  case isFalse band =>
    obtain ⟨b, said, rfl⟩ := Option.map_eq_some_iff.mp written
    refine ⟨?_, fun m few' other => entryLayout_congr ?_⟩
    · rw [padsCleared, if_neg band]
      refine entryLayout_full size ?_
      simp only [entryFields, encodeCurve, if_neg band, Row.get_set_same]
      exact decodeBand_back size said
    · by_cases first : m = 0
      · simp only [entryFields, encodeCurve, if_pos first]
      · have few'' : m < 9 := few'
        have place := ofNat_ne (k := 8) (m := m - 1) (n := n - 1) (by omega) (by omega) (by omega)
        simp only [entryFields, encodeCurve, if_neg first, Row.get_set_other _ _ place]

/-- The Class Policy Table. -/
theorem classPolicy_readsBack (few : n < 6) (size : bs.length = 13) (written : writeEntry .classPolicy n bs t = some u) :
    ReadsBack .classPolicy n bs t u := by
  obtain ⟨p, said, rfl⟩ := Option.map_eq_some_iff.mp written
  refine ⟨entryLayout_full size ?_, fun m few' other => entryLayout_congr ?_⟩
  · simp only [entryFields, Row.get_set_same]
    exact decodePolicy_back size said
  · simp only [entryFields, Row.get_set_other _ _ (ofNat_ne (k := 6) few' few other)]

/-- The Margin Table. -/
theorem margin_readsBack (few : n < 5) (size : bs.length = 3) (written : writeEntry .margin n bs t = some u) :
    ReadsBack .margin n bs t u := by
  simp only [writeEntry] at written
  split at written
  case isTrue last =>
    obtain ⟨e, said, rfl⟩ := Option.map_eq_some_iff.mp written
    obtain ⟨_, rfl⟩ := (field1_eq_some ..).mp said
    have tail : bs.drop 2 = [bs.getD 2 0] := by
      rw [← congrArg (List.drop 2) (bytes_eq size)]
      rfl
    refine ⟨?_, fun m _ other => entryLayout_congr ?_⟩
    · have fields : entryFields .margin n { t with margin := { t.margin with absentExtra := u8 bs 2 } }
          = [0, 0] ++ bs.drop 2 := by
        simp only [entryFields, encodeMargin, if_pos last, byte1_u8, tail]
      rw [entryLayout_padded fields, padsCleared, if_pos last, tail]
      rfl
    · have inner : m ≠ 4 := fun same => other (same.trans last.symm)
      simp only [entryFields, encodeMargin, if_neg inner]
  case isFalse inner =>
    obtain ⟨b, said, rfl⟩ := Option.map_eq_some_iff.mp written
    refine ⟨?_, fun m few' other => entryLayout_congr ?_⟩
    · rw [padsCleared, if_neg inner]
      refine entryLayout_full size ?_
      simp only [entryFields, encodeMargin, if_neg inner, Row.get_set_same]
      exact decodeMarginBand_back size said
    · by_cases last : m = 4
      · simp only [entryFields, encodeMargin, if_pos last]
      · have few'' : m < 5 := few'
        have place := ofNat_ne (k := 4) (m := m) (n := n) (by omega) (by omega) other
        simp only [entryFields, encodeMargin, if_neg last, Row.get_set_other _ _ place]

/-- The Fixed Window Table. -/
theorem window_readsBack (few : n < 4) (size : bs.length = 10) (written : writeEntry .window n bs t = some u) :
    ReadsBack .window n bs t u := by
  obtain ⟨w, said, rfl⟩ := Option.map_eq_some_iff.mp written
  refine ⟨entryLayout_full size ?_, fun m few' other => entryLayout_congr ?_⟩
  · simp only [entryFields, Row.get_set_same]
    exact decodeWindow_back size said
  · simp only [entryFields, Row.get_set_other _ _ (ofNat_ne (k := 4) few' few other)]

/-- The Derate Table. -/
theorem derate_readsBack (few : n < 8) (size : bs.length = 1) (written : writeEntry .derate n bs t = some u) :
    ReadsBack .derate n bs t u := by
  cases written
  refine ⟨entryLayout_full size ?_, fun m few' other => entryLayout_congr ?_⟩
  · simp only [entryFields, Row.get_set_same, byte1_u8]
    exact bytes_eq size
  · simp only [entryFields, Row.get_set_other _ _ (ofNat_ne (k := 8) few' few other)]

/-- The Condition Table. -/
theorem condition_readsBack (few : n < 16) (size : bs.length = 7) (written : writeEntry .condition n bs t = some u) :
    ReadsBack .condition n bs t u := by
  obtain ⟨c, found, number⟩ := condOf_some few
  have place : condNo c = Fin.ofNat 16 n := Fin.ext (number.trans (Nat.mod_eq_of_lt few).symm)
  simp only [writeEntry, found, Option.bind_some] at written
  obtain ⟨e, said, rfl⟩ := Option.map_eq_some_iff.mp written
  rw [place]
  refine ⟨entryLayout_full size ?_, fun m few' other => entryLayout_congr ?_⟩
  · simp only [entryFields, Row.get_set_same]
    exact decodeCondition_back size said
  · simp only [entryFields, Row.get_set_other _ _ (ofNat_ne (k := 16) few' few other)]

/-- The Filter Table. -/
theorem filter_readsBack (few : n < 16) (size : bs.length = 6) (written : writeEntry .filter n bs t = some u) :
    ReadsBack .filter n bs t u := by
  obtain ⟨f, said, rfl⟩ := Option.map_eq_some_iff.mp written
  refine ⟨entryLayout_full size ?_, fun m few' other => entryLayout_congr ?_⟩
  · simp only [entryFields, Row.get_set_same]
    exact decodeFilter_back size said
  · simp only [entryFields, Row.get_set_other _ _ (ofNat_ne (k := 16) few' few other)]

/-- The Vehicle Parameters. -/
theorem vehicle_readsBack (few : n < 1) (size : bs.length = 21) (written : writeEntry .vehicle n bs t = some u) :
    ReadsBack .vehicle n bs t u := by
  obtain ⟨v, said, rfl⟩ := Option.map_eq_some_iff.mp written
  refine ⟨entryLayout_full size (decodeVehicle_back size said), fun m few' other => absurd few' ?_⟩
  have one : entryCount .vehicle = 1 := rfl
  omega

/-- The Build Parameters. -/
theorem build_readsBack (few : n < 1) (size : bs.length = 5) (written : writeEntry .build n bs t = some u) :
    ReadsBack .build n bs t u := by
  obtain ⟨b, said, rfl⟩ := Option.map_eq_some_iff.mp written
  refine ⟨entryLayout_full size (decodeBuild_back size said), fun m few' other => absurd few' ?_⟩
  have one : entryCount .build = 1 := rfl
  omega

/-- The Link Parameters. -/
theorem link_readsBack (few : n < 1) (size : bs.length = 11) (written : writeEntry .link n bs t = some u) :
    ReadsBack .link n bs t u := by
  obtain ⟨p, said, rfl⟩ := Option.map_eq_some_iff.mp written
  refine ⟨entryLayout_full size (decodeLink_back size said), fun m few' other => absurd few' ?_⟩
  have one : entryCount .link = 1 := rfl
  omega

/-- Entries of one side of a bound are on one link, and else on two. -/
theorem sideOf_eq {m bound : Nat} (same : sideOf m bound = sideOf n bound) : m < bound ↔ n < bound := by
  unfold sideOf at same
  by_cases left_ : m < bound
  · by_cases left' : n < bound
    · exact ⟨fun _ => left', fun _ => left_⟩
    · rw [if_pos left_, if_neg left'] at same
      cases same
  · by_cases left' : n < bound
    · rw [if_neg left_, if_pos left'] at same
      cases same
    · exact ⟨fun h => absurd h left_, fun h => absurd h left'⟩

/-- The Segment Map. -/
theorem segMap_readsBack (few : n < 2) (size : bs.length = 17) (written : writeEntry .segMap n bs t = some u) :
    ReadsBack .segMap n bs t u := by
  obtain ⟨g, said, rfl⟩ := Option.map_eq_some_iff.mp written
  refine ⟨entryLayout_full size ?_, fun m few' other => entryLayout_congr ?_⟩
  · simp only [entryFields, Both.get_set_same]
    exact decodeSegMap_back size said
  · have few'' : m < 2 := few'
    have side : sideOf m 1 ≠ sideOf n 1 := fun same => by
      have sides := sideOf_eq same
      omega
    simp only [entryFields, Both.get_set_other _ _ side]

/-- The Module Table. -/
theorem modules_readsBack (few : n < 8) (size : bs.length = 5) (written : writeEntry .modules n bs t = some u) :
    ReadsBack .modules n bs t u := by
  obtain ⟨e, said, rfl⟩ := Option.map_eq_some_iff.mp written
  refine ⟨entryLayout_full size ?_, fun m few' other => entryLayout_congr ?_⟩
  · simp only [entryFields, Both.get_set_same, Row.get_set_same]
    exact decodeModule_back size said
  · have few'' : m < 8 := few'
    by_cases side : sideOf m 4 = sideOf n 4
    · have sides := sideOf_eq side
      have place : Fin.ofNat 4 m ≠ Fin.ofNat 4 n := fun same => by
        have values : m % 4 = n % 4 := congrArg Fin.val same
        omega
      simp only [entryFields, side, Both.get_set_same, Row.get_set_other _ _ place]
    · simp only [entryFields, Both.get_set_other _ _ side]

/-- A mode's row replaced. -/
theorem getModeRow_setModeRow {v : ModeTable} {r : ModeRow} (row : n ≠ 0) (few : n < 7) :
    getModeRow (setModeRow v n r) n = r := by
  match n with
  | 0 => exact absurd rfl row
  | 1 | 2 | 3 | 4 | 5 | 6 => rfl
  | k + 7 => omega

/-- The rows of the others. -/
theorem getModeRow_setModeRow_other {v : ModeTable} {r : ModeRow} {m : Nat} (row' : m ≠ 0) (few' : m < 7) (row : n ≠ 0)
    (few : n < 7) (other : m ≠ n) : getModeRow (setModeRow v n r) m = getModeRow v m := by
  have one : 1 ≤ n := Nat.pos_of_ne_zero row
  have one' : 1 ≤ m := Nat.pos_of_ne_zero row'
  interval_cases n <;> interval_cases m
  any_goals exact absurd rfl other
  all_goals rfl

/-- And the thresholds. -/
theorem setModeRow_thresholds (v : ModeTable) (n : Nat) (r : ModeRow) :
    (setModeRow v n r).townSpeed = v.townSpeed ∧ (setModeRow v n r).motorwaySpeed = v.motorwaySpeed
      ∧ (setModeRow v n r).hysteresis = v.hysteresis ∧ (setModeRow v n r).adverseThreshold = v.adverseThreshold
      ∧ (setModeRow v n r).townThreshold = v.townThreshold := by
  unfold setModeRow
  split <;> exact ⟨rfl, rfl, rfl, rfl, rfl⟩

/-- The Mode Table. -/
theorem mode_readsBack (few : n < 7) (size : bs.length = 7) (written : writeEntry .mode n bs t = some u) :
    ReadsBack .mode n bs t u := by
  simp only [writeEntry] at written
  split at written
  case isTrue first =>
    obtain ⟨v, said, rfl⟩ := Option.map_eq_some_iff.mp written
    obtain ⟨rows, fields⟩ := decodeThresholds_back size said
    refine ⟨?_, fun m _ other => entryLayout_congr ?_⟩
    · rw [padsCleared, if_pos first]
      refine entryLayout_full size ?_
      simp only [entryFields, encodeMode, if_pos first]
      exact fields
    · have row : m ≠ 0 := fun same => other (same.trans first.symm)
      simp only [entryFields, encodeMode, if_neg row, rows]
  case isFalse row =>
    obtain ⟨r, said, rfl⟩ := Option.map_eq_some_iff.mp written
    refine ⟨?_, fun m few' other => entryLayout_congr ?_⟩
    · have fields : entryFields .mode n { t with mode := setModeRow t.mode n r } = bs.take 2 := by
        simp only [entryFields, encodeMode, if_neg row, getModeRow_setModeRow row few]
        rw [← bytes_take (by omega)]
        exact decodeModeRow_back said
      rw [entryLayout_padded fields, padsCleared, if_neg row, List.length_take, size]
      rfl
    · by_cases first : m = 0
      · simp only [entryFields, encodeMode, if_pos first, setModeRow_thresholds]
      · simp only [entryFields, encodeMode, if_neg first, getModeRow_setModeRow_other first few' row few other]

/-- The Profile Table. -/
theorem profile_readsBack (few : n < 72) (size : bs.length = 24) (written : writeEntry .profile n bs t = some u) :
    ReadsBack .profile n bs t u := by
  obtain ⟨v, said, rfl⟩ := Option.map_eq_some_iff.mp written
  have few_ : n / 9 < 8 := by omega
  unfold writeProfile at said
  dsimp only at said
  split at said
  case isTrue edge =>
    obtain ⟨e, code, rfl⟩ := Option.map_eq_some_iff.mp said
    refine ⟨?_, fun m few' other => entryLayout_congr ?_⟩
    · have fields : entryFields .profile n { t with
          profile := t.profile.modify (Fin.ofNat 8 (n / 9)) fun p => { p with edge := e } } = bs.take 1 := by
        simp only [entryFields, encodeProfile, if_pos edge, Row.get_modify_same, byte1_code (edgeOf_code code)]
        rw [← bytes_take (by omega)]
        rfl
      rw [entryLayout_padded fields, padsCleared, if_pos edge, List.length_take, size]
      rfl
    · have few'' : m < 72 := few'
      by_cases own : m / 9 = n / 9
      · have row : m % 9 ≠ 8 := by omega
        simp only [entryFields, encodeProfile, if_neg row, own, Row.get_modify_same]
      · have place := ofNat_ne (k := 8) (m := m / 9) (n := n / 9) (by omega) few_ own
        simp only [entryFields, encodeProfile, Row.get_modify_other _ _ place]
  case isFalse row =>
    cases said
    refine ⟨?_, fun m few' other => entryLayout_congr ?_⟩
    · rw [padsCleared, if_neg row]
      refine entryLayout_full size ?_
      simp only [entryFields, encodeProfile, if_neg row, Row.get_modify_same, setProfileRow, Both.get_set_same,
        Row.get_set_same]
      exact decodeProfileRow_back size
    · have few'' : m < 72 := few'
      by_cases own : m / 9 = n / 9
      · by_cases edge : m % 9 = 8
        · simp only [entryFields, encodeProfile, if_pos edge, own, Row.get_modify_same, setProfileRow]
        · simp only [entryFields, encodeProfile, if_neg edge, own, Row.get_modify_same, setProfileRow]
          by_cases side : sideOf (m % 9) 4 = sideOf (n % 9) 4
          · have sides := sideOf_eq side
            have place : Fin.ofNat 4 (m % 9) ≠ Fin.ofNat 4 (n % 9) := fun same => by
              have values : m % 9 % 4 = n % 9 % 4 := congrArg Fin.val same
              omega
            rw [side, Both.get_set_same, Row.get_set_other _ _ place]
          · rw [Both.get_set_other _ _ side]
      · have place := ofNat_ne (k := 8) (m := m / 9) (n := n / 9) (by omega) few_ own
        simp only [entryFields, encodeProfile, Row.get_modify_other _ _ place]

/-- Every table. -/
theorem writeEntry_readsBack (few : n < entryCount id) (size : bs.length = entrySize id)
    (written : writeEntry id n bs t = some u) : ReadsBack id n bs t u := by
  cases id
  case curve => exact curve_readsBack few size written
  case classPolicy => exact classPolicy_readsBack few size written
  case margin => exact margin_readsBack few size written
  case window => exact window_readsBack few size written
  case derate => exact derate_readsBack few size written
  case condition => exact condition_readsBack few size written
  case vehicle => exact vehicle_readsBack few size written
  case build => exact build_readsBack few size written
  case filter => exact filter_readsBack few size written
  case segMap => exact segMap_readsBack few size written
  case modules => exact modules_readsBack few size written
  case profile => exact profile_readsBack few size written
  case mode => exact mode_readsBack few size written
  case link => exact link_readsBack few size written

end Written

end Sys2Proof.Machine

/-! Tables loaded, committed and discarded (R170 to R174, R180, R101). -/

namespace Sys2Proof.Machine

/-! ## Entries cut from a run of bytes, and written one after another -/

/-- The pieces of a run of bytes. -/
theorem pieces_eq (size count : Nat) (bytes : List Byte) :
    pieces size count bytes = (List.range count).map fun k => (bytes.drop (k * size)).take size := by
  induction count generalizing bytes with
  | zero => rfl
  | succ n ih =>
    rw [pieces, ih, List.range_succ_eq_map, List.map_cons, List.map_map, Nat.zero_mul, List.drop_zero]
    congr 1
    refine List.map_congr_left fun k _ => ?_
    rw [List.drop_drop, Function.comp_apply, Nat.succ_mul, Nat.add_comm]

/-! ## The staging area (R170) -/

section Staging

variable {i j : TableId} {x y : Tables} {st : Staging}

/-- A live table staged stands in the overlay for its own table only. -/
theorem stageTable_onlyTable (i : TableId) (x y : Tables) (st : Staging) :
    OnlyTable i (overlay st y) (overlay (stageTable i x st) y) := by
  cases i <;> rfl

/-- The bytes of a staged table are its copy's. -/
theorem stageTable_layout (live : tableLive i = true) (n : Nat) :
    entryLayout i n (overlay (stageTable i x st) y) = entryLayout i n x := by
  cases i
  case filter | segMap | modules | profile | mode | link => cases live
  all_goals rfl

/-- A live table staged is staged. -/
theorem stageTable_staged (live : tableLive i = true) : isStaged (stageTable i x st) i = true := by
  cases i
  case filter | segMap | modules | profile | mode | link => cases live
  all_goals rfl

/-- And no other is touched. -/
theorem stageTable_others (other : j ≠ i) : isStaged (stageTable i x st) j = isStaged st j := by
  cases i <;> cases j
  any_goals exact absurd rfl other
  all_goals rfl

end Staging

/-! ## Tables coming into force (R18, R38, R137, R101) -/

/-- Links that report leave the messages to VSB, TU and CM about tables. -/
theorem reportLinks_mail (s : State) : (reportLinks s).mail.vehicleParams = s.mail.vehicleParams
    ∧ (reportLinks s).mail.classPolicy = s.mail.classPolicy ∧ (reportLinks s).mail.condTable = s.mail.condTable := by
  rw [reportLinks, reportLink_mail, reportLink_mail]
  exact ⟨rfl, rfl, rfl⟩

/-- What each table tells where it comes into force. -/
theorem tableLives_mail (i : TableId) (before : Tables) (s : State) :
    (tableLives i before s).mail.vehicleParams = s.mail.vehicleParams + (if i = .vehicle then 1 else 0)
      ∧ (tableLives i before s).mail.classPolicy = s.mail.classPolicy + (if i = .classPolicy then 1 else 0)
      ∧ (tableLives i before s).mail.condTable = s.mail.condTable ++ if i = .condition then
          [⟨before.condition.map fun e => e.latching, s.mu.tables.condition.map fun e => e.latching⟩] else [] := by
  cases i
  case condition => exact ⟨rfl, rfl, rfl⟩
  case build | segMap =>
    obtain ⟨vehicle, policy, condition⟩ := reportLinks_mail s
    exact ⟨vehicle, policy, condition.trans (List.append_nil _).symm⟩
  all_goals exact ⟨rfl, rfl, (List.append_nil _).symm⟩

/-- A slot a load has marked not present that does not count as ABSENT yet (R101). -/
def SlotGone (s : State) (l : Link) (k : Slot) : Prop :=
  ((s.mu.tables.modules.get l).get k).present = false ∧ ((s.links.get l).modules.get k).treatedAbsent = false
    ∧ ((s.links.get l).modules.get k).state ≠ .absent

/-- As the machine checks it. -/
def slotGoes (s : State) (l : Link) (k : Slot) : Bool :=
  !(moduleEntry s l k).present && decide (effState (moduleRec s l k) ≠ .absent)

/-- That is the same. -/
theorem slotGoes_iff (s : State) (l : Link) (k : Slot) : slotGoes s l k = true ↔ SlotGone s l k := by
  unfold slotGoes
  rw [Bool.and_eq_true, Bool.not_eq_true', decide_eq_true_eq]
  refine and_congr_right fun _ => ?_
  unfold effState moduleRec
  cases (s.links.get l |>.modules.get k).treatedAbsent <;> simp

/-- A link's controller without the slots a load takes away. -/
def withoutGone (s : State) (l : Link) (c : Slc) : Slc :=
  { c with
    modules := c.modules.mapIdx fun k m => if slotGoes s l k then { m with treatedAbsent := true } else m
    poll := c.poll.mapIdx fun k e => if slotGoes s l k then none else e }

/-- The slots of a link marked not present count as ABSENT from now on, and the link reports (R101, R112). -/
theorem treatAbsent_eq (l : Link) (s : State) : treatAbsent l s
    = if allSlots.any (slotGoes s l) then reportLink l (updLink l (withoutGone s l) s) else s := rfl

/-- What the slots of a link lose (R101). -/
theorem treatAbsent_own (l : Link) (s : State) (k : Slot) :
    let r := (s.links.get l).modules.get k
    let c := (treatAbsent l s).links.get l
    (SlotGone s l k → c.modules.get k = { r with treatedAbsent := true } ∧ c.poll.get k = none)
      ∧ (¬SlotGone s l k → c.modules.get k = r ∧ c.poll.get k = (s.links.get l).poll.get k) := by
  have every : ∀ k, k ∈ allSlots := by decide
  intro r c
  have carried : c.modules.get k = (if slotGoes s l k then { r with treatedAbsent := true } else r)
      ∧ c.poll.get k = if slotGoes s l k then none else (s.links.get l).poll.get k := by
    by_cases some_ : allSlots.any (slotGoes s l) = true
    · have left_ : treatAbsent l s = reportLink l (updLink l (withoutGone s l) s) := if_pos some_
      obtain ⟨modules, poll, _⟩ := reportLink_links l (updLink l (withoutGone s l) s) l
      rw [← left_] at modules poll
      refine ⟨(congrArg (Row.get · k) modules).trans ?_, (congrArg (Row.get · k) poll).trans ?_⟩
      · simp only [updLink, Both.get_set_same, withoutGone, Row.get_mapIdx]
        rfl
      · simp only [updLink, Both.get_set_same, withoutGone, Row.get_mapIdx]
    · have stays : slotGoes s l k = false :=
        Bool.eq_false_iff.mpr fun goes => some_ (List.any_eq_true.mpr ⟨k, every k, goes⟩)
      have left_ : treatAbsent l s = s := if_neg some_
      have same : c = s.links.get l := by rw [← left_]
      rw [same, stays]
      exact ⟨rfl, rfl⟩
  refine ⟨fun gone => ?_, fun stays => ?_⟩
  · have goes := (slotGoes_iff s l k).mpr gone
    rwa [goes, if_pos rfl, if_pos rfl] at carried
  · have not_ : slotGoes s l k = false := Bool.eq_false_iff.mpr (mt (slotGoes_iff s l k).mp stays)
    rwa [not_, if_neg Bool.false_ne_true, if_neg Bool.false_ne_true] at carried

/-- The other link stays. -/
theorem treatAbsent_other {l m : Link} (other : m ≠ l) (s : State) :
    ((treatAbsent l s).links.get m).modules = (s.links.get m).modules
      ∧ ((treatAbsent l s).links.get m).poll = (s.links.get m).poll := by
  rw [treatAbsent_eq]
  split
  · obtain ⟨modules, poll, _⟩ := reportLink_links l (updLink l (withoutGone s l) s) m
    rw [modules, poll, updLink, Both.get_set_other _ _ other]
    exact ⟨rfl, rfl⟩
  · exact ⟨rfl, rfl⟩

/-- Of both links (R101). -/
theorem treatAbsent_both (s : State) (l : Link) (k : Slot) :
    let r := (s.links.get l).modules.get k
    let c := (treatAbsent .right (treatAbsent .left s)).links.get l
    (SlotGone s l k → c.modules.get k = { r with treatedAbsent := true } ∧ c.poll.get k = none)
      ∧ (¬SlotGone s l k → c.modules.get k = r ∧ c.poll.get k = (s.links.get l).poll.get k) := by
  cases l
  case left =>
    obtain ⟨modules, poll⟩ := treatAbsent_other (l := .right) (m := .left) (by decide) (treatAbsent .left s)
    intro r c
    have same : c.modules = ((treatAbsent .left s).links.get .left).modules := modules
    have same' : c.poll = ((treatAbsent .left s).links.get .left).poll := poll
    rw [same, same']
    exact treatAbsent_own .left s k
  case right =>
    obtain ⟨modules, poll⟩ := treatAbsent_other (l := .left) (m := .right) (by decide) s
    have own := treatAbsent_own .right (treatAbsent .left s) k
    obtain ⟨_, _, _, _, _, _, _, _, _, _, _, mu, _⟩ := treatAbsent_keeps .left s
    have gone : SlotGone (treatAbsent .left s) .right k ↔ SlotGone s .right k := by
      unfold SlotGone
      rw [modules, mu]
    rw [gone, modules, poll] at own
    exact own

/-! ## LOAD_TABLE, COMMIT_TABLES, DISCARD_STAGED (R171, R173) -/

section Commands

variable {s : State} {f : UpFrame} {rest : List UpFrame}

/-- The run of entries a LOAD_TABLE names. -/
def LoadOk (id first : Byte) (bytes : List Byte) (i : TableId) (count : Nat) : Prop :=
  id.toNat = tableNo i ∧ bytes.length = count * entrySize i ∧ 1 ≤ count ∧ count ≤ entriesPerFrame i
    ∧ first.toNat + count ≤ entryCount i

/-- A range of entries that a frame may name. -/
theorem rangeOk_iff (i : TableId) (first count : Nat) :
    rangeOk i first count = true ↔ (1 ≤ count ∧ count ≤ entriesPerFrame i) ∧ first + count ≤ entryCount i := by
  simp [rangeOk, natWithin]

/-- LOAD_TABLE of a run that may be loaded. -/
theorem carryLoadTable_ok {id first : Byte} {bytes : List Byte} {i : TableId} {count : Nat}
    (ok : LoadOk id first bytes i count) (t : State) : carryLoadTable (id :: first :: bytes) t
      = loadEntries i first.toNat (pieces (entrySize i) count bytes) t := by
  obtain ⟨named, size, some_, most, end_⟩ := ok
  have table : tableOf (u8 (id :: first :: bytes) 0) = some i := (tableOf_eq_iff i _).mpr named
  have whole : bytes.length / entrySize i = count := by rw [size, Nat.mul_div_cancel _ (entrySize_pos i)]
  have even : decide (bytes.length % entrySize i = 0) = true := by rw [size, Nat.mul_mod_left]; rfl
  have range : rangeOk i first.toNat count = true := (rangeOk_iff ..).mpr ⟨⟨some_, most⟩, end_⟩
  unfold carryLoadTable
  rw [table]
  have tail : (id :: first :: bytes).drop 2 = bytes := rfl
  have head : u8 (id :: first :: bytes) 1 = first.toNat := rfl
  simp only [tail, head, whole, even, range, Bool.and_true, if_true]

/-- And of one that may not. -/
theorem carryLoadTable_bad {id first : Byte} {bytes : List Byte} (bad : ∀ i count, ¬LoadOk id first bytes i count)
    (t : State) : carryLoadTable (id :: first :: bytes) t = refuse .badArgument t := by
  unfold carryLoadTable
  dsimp only
  split
  case h_1 => rfl
  case h_2 i table =>
    refine if_neg fun fits => ?_
    obtain ⟨even, range⟩ := Bool.and_eq_true_iff.mp fits
    obtain ⟨⟨some_, most⟩, end_⟩ := (rangeOk_iff ..).mp range
    have size : bytes.length % entrySize i = 0 := of_decide_eq_true even
    exact bad i _ ⟨(tableOf_eq_iff i _).mp table, (Nat.div_mul_cancel (Nat.dvd_of_mod_eq_zero size)).symm, some_, most, end_⟩

/-- LOAD_TABLE taken. -/
theorem Asks.load {id first : Byte} {bytes : List Byte} (asks : Asks f 8 (id :: first :: bytes)) :
    parseRequest f = .command .loadTable (id :: first :: bytes) := by
  have form : requestOfCode (8 : Byte).toNat (id :: first :: bytes)
      = ofLength .loadTable (decide (2 ≤ (id :: first :: bytes).length)) (id :: first :: bytes) := rfl
  have long : decide (2 ≤ (id :: first :: bytes).length) = true := decide_eq_true (by simp)
  rw [asks.parse, form, long]
  rfl

/-- Of a live table in RUN: into the staged copy. -/
theorem carryLoadTable_staged {id first : Byte} {bytes : List Byte} {i : TableId} {count : Nat}
    (ok : LoadOk id first bytes i count) (run : s.mu.config = .run)
    (live : tableLive i = true) (free : s.mu.commitPending = false) : carryLoadTable (id :: first :: bytes) (afterTaking rest s)
      = loadStaged i first.toNat (pieces (entrySize i) count bytes) (afterTaking rest s) := by
  have same : (afterTaking rest s).mu.config = .run := run
  have idle : (afterTaking rest s).mu.commitPending = false := free
  refine (carryLoadTable_ok ok _).trans ?_
  unfold loadEntries
  rw [same, live, idle]
  rfl

/-- Of any table in CONFIG: into the live copy. -/
theorem carryLoadTable_live {id first : Byte} {bytes : List Byte} {i : TableId} {count : Nat}
    (ok : LoadOk id first bytes i count) (config : s.mu.config = .config) :
    carryLoadTable (id :: first :: bytes) (afterTaking rest s)
      = loadLive i first.toNat (pieces (entrySize i) count bytes) (afterTaking rest s) := by
  have same : (afterTaking rest s).mu.config = .config := config
  refine (carryLoadTable_ok ok _).trans ?_
  unfold loadEntries
  rw [same]

/-- Entries written into the staged copy, the first bad one named. -/
theorem loadStaged_bad {i : TableId} {n k : Nat} {entries : List (List Byte)} {t : State}
    (writes : writeEntries i n entries (overlay t.mu.staged t.mu.tables) = .error k) :
    loadStaged i n entries t = badTable i k t := by
  unfold loadStaged
  rw [writes]

/-- Or all of them. -/
theorem loadStaged_ok {i : TableId} {n : Nat} {entries : List (List Byte)} {t : State} {x : Tables}
    (writes : writeEntries i n entries (overlay t.mu.staged t.mu.tables) = .ok x) : loadStaged i n entries t
      = done { t with mu := { t.mu with staged := stageTable i x t.mu.staged } } := by
  unfold loadStaged
  rw [writes]

/-- Entries written into the live copy, the first bad one named. -/
theorem loadLive_bad {i : TableId} {n k : Nat} {entries : List (List Byte)} {t : State}
    (writes : writeEntries i n entries t.mu.tables = .error k) : loadLive i n entries t = badTable i k t := by
  unfold loadLive
  dsimp only
  rw [writes]

/-- Or all of them. -/
theorem loadLive_ok {i : TableId} {n : Nat} {entries : List (List Byte)} {t : State} {x : Tables}
    (writes : writeEntries i n entries t.mu.tables = .ok x) : loadLive i n entries t
      = done (moduleLoadFollows i (tableLives i t.mu.tables { t with mu := { t.mu with tables := x } })) := by
  unfold loadLive
  dsimp only
  rw [writes]

/-- COMMIT_TABLES that goes on to the table checks (R173). -/
theorem carryCommitTables_checks (run : s.mu.config = .run) (free : s.mu.commitPending = false)
    (some_ : allTables.filter (isStaged s.mu.staged) ≠ []) : carryCommitTables [] (afterTaking rest s)
      = match firstFailing (allTables.filter (isStaged s.mu.staged)) (overlay s.mu.staged s.mu.tables) with
        | none => done (trigger { afterTaking rest s with mu := { s.mu with
            commitPending := true, stats := bumpAt Stat.muCommits s.mu.stats } })
        | some (i, n) => badTable i n { afterTaking rest s with
            mu := { s.mu with staged := emptyStaging, stats := bumpAt Stat.muCommitsRejected s.mu.stats }
            mail := { s.mail with events := s.mail.events ++ [.tableRejected] } } := by
  have other : ¬(afterTaking rest s).mu.config = .config := fun config => by cases run.symm.trans config
  have idle : ¬(afterTaking rest s).mu.commitPending = true := Bool.eq_false_iff.mp free
  have full : ¬(stagedTables (afterTaking rest s).mu.staged).isEmpty = true := mt List.isEmpty_iff.mp some_
  exact (if_neg other).trans ((if_neg idle).trans (if_neg full))

variable (takes : Takes s f rest)
include takes

/-- A request that names a table's entry. -/
theorem Takes.carriesBad {c : Command} {run : List Byte → State → Carried} {args : List Byte} {i : TableId} {n : Nat}
    {u : State} (asks : parseRequest f = .command c args) (carried : run args (afterTaking rest s) = badTable i n u) :
    takeCommand c run s = .next (answered f .badTable [BitVec.ofNat 8 (tableNo i), BitVec.ofNat 8 n] false u) :=
  takes.carries asks carried

/-- LOAD_TABLE of a run of entries no table has (R171). -/
theorem exec_loadTable_bad {id first : Byte} {bytes : List Byte} (asks : Asks f 8 (id :: first :: bytes))
    (bad : ∀ i count, ¬LoadOk id first bytes i count) :
    exec .loadTable s = .next (answered f .badArgument [] false (afterTaking rest s)) :=
  takes.carriesPlain (run := carryLoadTable) asks.load (carryLoadTable_bad bad _)

/-- Of a structural table in RUN. -/
theorem exec_loadTable_structural {id first : Byte} {bytes : List Byte} {i : TableId} {count : Nat}
    (asks : Asks f 8 (id :: first :: bytes)) (ok : LoadOk id first bytes i count) (run : s.mu.config = .run)
    (structural : tableLive i = false) :
    exec .loadTable s = .next (answered f .refusedState [] false (afterTaking rest s)) := by
  have same : (afterTaking rest s).mu.config = .run := run
  refine takes.carriesPlain (run := carryLoadTable) asks.load ((carryLoadTable_ok ok _).trans ?_)
  unfold loadEntries
  rw [same, structural]
  rfl

/-- Of a live table in RUN, a commit pending. -/
theorem exec_loadTable_busy {id first : Byte} {bytes : List Byte} {i : TableId} {count : Nat}
    (asks : Asks f 8 (id :: first :: bytes)) (ok : LoadOk id first bytes i count) (run : s.mu.config = .run)
    (live : tableLive i = true) (busy : s.mu.commitPending = true) :
    exec .loadTable s = .next (answered f .busyCommit [] false (afterTaking rest s)) := by
  have same : (afterTaking rest s).mu.config = .run := run
  have pending : (afterTaking rest s).mu.commitPending = true := busy
  refine takes.carriesPlain (run := carryLoadTable) asks.load ((carryLoadTable_ok ok _).trans ?_)
  unfold loadEntries
  rw [same, live, pending]
  rfl

/-- COMMIT_TABLES in CONFIG, or with nothing staged (R173). -/
theorem exec_commitTables_refused (asks : Asks f 9 []) (refused : s.mu.config = .config
    ∨ s.mu.commitPending = false ∧ allTables.filter (isStaged s.mu.staged) = []) :
    exec .commitTables s = .next (answered f .refusedState [] false (afterTaking rest s)) := by
  refine takes.carriesPlain (run := carryCommitTables) asks.parse ?_
  rcases refused with config | ⟨free, empty⟩
  · exact if_pos config
  · by_cases config : s.mu.config = .config
    · exact if_pos config
    · have idle : ¬(afterTaking rest s).mu.commitPending = true := Bool.eq_false_iff.mp free
      have none_ : (stagedTables (afterTaking rest s).mu.staged).isEmpty = true := List.isEmpty_iff.mpr empty
      exact (if_neg config).trans ((if_neg idle).trans (if_pos none_))

/-- With a commit pending. -/
theorem exec_commitTables_busy (asks : Asks f 9 []) (run : s.mu.config = .run) (busy : s.mu.commitPending = true) :
    exec .commitTables s = .next (answered f .busyCommit [] false (afterTaking rest s)) := by
  have other : ¬(afterTaking rest s).mu.config = .config := fun config => by cases run.symm.trans config
  exact takes.carriesPlain (run := carryCommitTables) asks.parse ((if_neg other).trans (if_pos busy))

/-- DISCARD_STAGED in CONFIG (R173). -/
theorem exec_discardStaged_config (asks : Asks f 10 []) (config : s.mu.config = .config) :
    exec .discardStaged s = .next (answered f .done [] false (afterTaking rest s)) := by
  have same : (afterTaking rest s).mu.config = .config := config
  refine takes.carriesPlain (run := carryDiscardStaged) asks.parse ?_
  unfold carryDiscardStaged
  rw [same]
  rfl

/-- In RUN with a commit pending. -/
theorem exec_discardStaged_busy (asks : Asks f 10 []) (run : s.mu.config = .run) (busy : s.mu.commitPending = true) :
    exec .discardStaged s = .next (answered f .busyCommit [] false (afterTaking rest s)) := by
  have same : (afterTaking rest s).mu.config = .run := run
  refine takes.carriesPlain (run := carryDiscardStaged) asks.parse ?_
  unfold carryDiscardStaged
  rw [same]
  exact if_pos busy

/-- And with none. -/
theorem exec_discardStaged (asks : Asks f 10 []) (run : s.mu.config = .run) (free : s.mu.commitPending = false) :
    exec .discardStaged s = .next (answered f .done [] false
      { afterTaking rest s with mu := { s.mu with staged := emptyStaging } }) := by
  have same : (afterTaking rest s).mu.config = .run := run
  refine takes.carriesPlain (run := carryDiscardStaged) asks.parse ?_
  unfold carryDiscardStaged
  rw [same]
  exact if_neg (Bool.eq_false_iff.mp free)

end Commands

/-- Settles O53. -/
theorem tablesAreLoadedCommittedAndDiscarded : Obligations.TablesAreLoadedCommittedAndDiscarded := by
  refine ⟨fun s f rest takes => ?_, fun i => by cases i <;> decide, rfl, pieces_eq, fun i n x => ⟨rfl, fun bs rest => rfl⟩,
    fun i n bs x few size => ⟨writeEntry_isSome few bs x, fun y written => ?_⟩, fun st x => rfl,
    fun i st x y live => ⟨stageTable_staged live, stageTable_layout live, fun j other => ⟨stageTable_others other,
      (stageTable_onlyTable i x y st).layout other⟩⟩, fun i => by cases i <;> rfl, tableLives_mail, fun i s => ?_⟩
  · intro t answers named
    refine ⟨fun id first bytes asks => ?_, fun asks => ?_, fun asks => ⟨exec_discardStaged_busy takes asks,
      exec_discardStaged takes asks, exec_discardStaged_config takes asks⟩⟩
    · intro good
      refine ⟨exec_loadTable_bad takes asks, fun i count ok => ?_⟩
      intro entries
      refine ⟨exec_loadTable_structural takes asks ok, exec_loadTable_busy takes asks ok, fun run live free => ?_,
        fun config => ?_⟩
      · have staged := carryLoadTable_staged (rest := rest) ok run live free
        cases writes : writeEntries i first.toNat entries (overlay s.mu.staged s.mu.tables)
        case error n => exact takes.carriesBad asks.load (staged.trans (loadStaged_bad writes))
        case ok x => exact takes.carriesPlain asks.load (staged.trans (loadStaged_ok writes))
      · have live := carryLoadTable_live (rest := rest) ok config
        cases writes : writeEntries i first.toNat entries s.mu.tables
        case error n => exact takes.carriesBad asks.load (live.trans (loadLive_bad writes))
        case ok x => exact takes.carriesPlain asks.load (live.trans (loadLive_ok writes))
    · intro staged
      refine ⟨fun config => exec_commitTables_refused takes asks (.inl config), exec_commitTables_busy takes asks,
        fun run free empty => exec_commitTables_refused takes asks (.inr ⟨free, empty⟩), fun run free some_ => ?_⟩
      have carried := carryCommitTables_checks (rest := rest) run free some_
      cases first : firstFailing staged (overlay s.mu.staged s.mu.tables)
      case none =>
        rw [first] at carried
        exact takes.carriesPlain (run := carryCommitTables) asks.parse carried
      case some entry =>
        rw [first] at carried
        exact takes.carriesBad (run := carryCommitTables) asks.parse carried
  · obtain ⟨own, others⟩ := writeEntry_readsBack few size written
    refine ⟨own, fun j m few' other => ?_⟩
    by_cases same : j = i
    · subst same
      exact others m few' fun same => other ⟨rfl, same⟩
    · exact (writeEntry_onlyTable written).layout same m
  · refine ⟨fun other => ?_, treatAbsent_both s⟩
    cases i
    case modules => exact absurd rfl other
    all_goals rfl

end Sys2Proof.Machine

/-! The data of replies, byte by byte (R20, R59, R79, R121, R134, R148, R162, R166 to R168, sections 11.3 and 11.6). -/

namespace Sys2Proof.Machine

/-! ## Numbers and codes -/

/-- The two bytes of a signed number (section 11). -/
theorem sbytes2_eq (x : Int) : sbytes2 x = [BitVec.ofInt 8 (x / 256), BitVec.ofInt 8 x] := by
  have high : BitVec.ofNat 8 ((BitVec.ofInt 16 x).toNat / 256) = BitVec.ofInt 8 (x / 256) := by
    apply BitVec.eq_of_toNat_eq
    rw [BitVec.toNat_ofNat, BitVec.toNat_ofInt, BitVec.toNat_ofInt]
    omega
  have low : BitVec.ofNat 8 (BitVec.ofInt 16 x).toNat = BitVec.ofInt 8 x := by
    apply BitVec.eq_of_toNat_eq
    rw [BitVec.toNat_ofNat, BitVec.toNat_ofInt, BitVec.toNat_ofInt]
    omega
  rw [sbytes2, bytes2, high, low]

/-- The number of a status is its place in the format's list. -/
theorem statusNo_place (x : Status) :
    [Status.done, .refusedState, .badArgument, .badTable, .busyCommit, .unknownCommand].idxOf x = statusNo x := by
  cases x <;> rfl

/-- Of a mode. -/
theorem modeNo_place (x : Mode) :
    [Mode.off, .low, .town, .country, .motorway, .adverse, .full, .fallback].idxOf x = (modeNo x).val := by
  cases x <;> rfl

/-- Of a beam request. -/
theorem requestNo_place (x : BeamRequest) : [BeamRequest.off, .low, .highAuto, .full, .flash].idxOf x = requestNo x := by
  cases x <;> rfl

/-- Of a road class. -/
theorem roadNo_place (x : RoadClass) : [RoadClass.urban, .rural, .motorway].idxOf x = roadNo x := by
  cases x <;> rfl

/-- Of a track state. -/
theorem trackStateNo_place (x : TrackState) : [TrackState.tentative, .confirmed, .coasting].idxOf x = trackStateNo x := by
  cases x <;> rfl

/-- Of a class. -/
theorem classNo_place (x : ObjClass) :
    [ObjClass.oncoming, .preceding, .twoWheeler, .pedestrian, .sign, .streetlight].idxOf x = (classNo x).val := by
  cases x <;> rfl

/-- Of a member. -/
theorem memberNo_place (x : Member) : [Member.pattern, .pass, .pollGroup].idxOf x = memberNo x := by
  cases x <;> rfl

/-- A reply's payload (section 11.3). -/
theorem replyPayload_eq (f : UpFrame) (seq : BitVec 4) (status : Status) (data : List Byte) :
    replyPayload (requestTag f) seq status data
      = [1, if f.payload.length < 2 then 0 else f.payload.getD 1 0, BitVec.ofNat 8 (16 * seq.toNat
          + [Status.done, .refusedState, .badArgument, .badTable, .busyCommit, .unknownCommand].idxOf status)] ++ data := by
  rw [statusNo_place, Nat.mul_comm]
  rfl

/-! ## Ages and fields (R20) -/

section Ages

variable (now : Nat)

/-- An age. -/
def ageBytes (x : Option Nat) : List Byte :=
  bytes2 (match x with | none => 65535 | some u => min 65535 ((now - u) / 1000))

/-- The age of an input. -/
theorem ageBytes_eq {α : Type} (i : FrameInput α) : bytes2 (ageOf now i) = ageBytes now i.updatedAt := rfl

/-- Source, age and freshness of a record field. -/
def fieldBytes (source : FieldSource) (updated : Option Nat) (isFresh : Bool) : List Byte :=
  (match source with
    | .frame => [0] ++ ageBytes now updated
    | .pin => [1] ++ bytes2 0) ++ [Config.freshnessCode isFresh]

/-- A record field. -/
theorem fieldItems_eq {α : Type} (value : List Byte) (r : RecordField α) (i : FrameInput α) :
    fieldItems value r.source (fieldAge now r i) r.fresh = value ++ fieldBytes now r.source i.updatedAt r.fresh := by
  unfold fieldItems fieldBytes fieldAge
  cases r.source
  case frame => rw [ageBytes_eq, List.append_assoc, List.append_assoc]; rfl
  case pin => rw [List.append_assoc, List.append_assoc]; rfl

/-- A field that comes from frames alone. -/
theorem fieldItems_frame {α : Type} (value : List Byte) (i : FrameInput α) (isFresh : Bool) :
    fieldItems value .frame (ageOf now i) isFresh = value ++ fieldBytes now .frame i.updatedAt isFresh := by
  unfold fieldItems fieldBytes
  rw [ageBytes_eq, List.append_assoc, List.append_assoc]
  rfl

/-- Part VEHICLE_MOTION. -/
theorem motionData_eq (v : Vsb) : motionData now v
    = bytes2 (v.speed.value.getD 65535) ++ fieldBytes now v.speed.source v.speedIn.updatedAt v.speed.fresh
      ++ sbytes2 (v.steer.value.getD (-32768)) ++ fieldBytes now v.steer.source v.steerIn.updatedAt v.steer.fresh
      ++ bytes2 (v.speedIn.value.getD 65535) ++ ageBytes now v.speedIn.updatedAt ++ [Config.freshnessCode v.speedIn.fresh]
      ++ sbytes2 (v.steerIn.value.getD (-32768)) ++ ageBytes now v.steerIn.updatedAt
      ++ [Config.freshnessCode v.steerIn.fresh]
      ++ bytes2 v.pinSpeed ++ sbytes2 (if v.pin.referenced then v.pin.angle else -32768)
      ++ [Config.referencingCode v.pin.referenced] ++ sbytes2 v.pin.counter := by
  have angle : (if v.pin.referenced then some v.pin.angle else none).getD (-32768)
      = if v.pin.referenced then v.pin.angle else -32768 := by
    cases v.pin.referenced <;> rfl
  simp only [motionData, fieldItems_eq, inputItems, ageBytes_eq, angle, opt2, sopt2, List.append_assoc]

/-- Part VEHICLE_OTHER. -/
theorem otherData_eq (v : Vsb) : otherData now v
    = sbyte1 (v.pitch.value.getD (-128)) ++ fieldBytes now .frame v.pitch.updatedAt v.pitch.fresh
      ++ byte1 (match v.request.value with
          | none => 255
          | some r => [BeamRequest.off, .low, .highAuto, .full, .flash].idxOf r)
      ++ fieldBytes now .frame v.request.updatedAt v.request.fresh
      ++ byte1 (match v.road.value with
          | none => 255
          | some r => [RoadClass.urban, .rural, .motorway].idxOf r)
      ++ fieldBytes now .frame v.road.updatedAt v.road.fresh
      ++ byte1 (v.weather.value.getD 255) ++ fieldBytes now .frame v.weather.updatedAt v.weather.fresh := by
  have request : opt1 (v.request.value.map requestNo) = byte1 (match v.request.value with
      | none => 255
      | some r => [BeamRequest.off, .low, .highAuto, .full, .flash].idxOf r) := by
    cases v.request.value
    case none => rfl
    case some r => exact congrArg byte1 (requestNo_place r).symm
  have road : opt1 (v.road.value.map roadNo) = byte1 (match v.road.value with
      | none => 255
      | some r => [RoadClass.urban, .rural, .motorway].idxOf r) := by
    cases v.road.value
    case none => rfl
    case some r => exact congrArg byte1 (roadNo_place r).symm
  rw [← request, ← road]
  simp only [otherData, fieldItems_frame, sopt1, opt1, List.append_assoc]

/-! ## BUILD, DELIVERY, PORT (R79, R134, R162) -/

/-- A mode in one byte. -/
def modeByte (m : Mode) : List Byte :=
  byte1 ([Mode.off, .low, .town, .country, .motorway, .adverse, .full, .fallback].idxOf m)

/-- That is its number. -/
theorem modeByte_eq (m : Mode) : byte1 (modeNo m).val = modeByte m := by
  rw [modeByte, modeNo_place]

/-- Part BUILD. -/
theorem buildData_eq (mu : Mu) (pb : Pb) : buildData mu pb = [Config.configStateCode mu.config] ++ flag1 mu.holdLow
    ++ flag1 mu.isolation ++ modeByte pb.mode ++ sbytes2 pb.swivel ++ sbyte1 pb.rowShift ++ flag1 pb.build.isSome
    ++ flag1 pb.rebuild ++ [pb.generation] := by
  rw [buildData, modeByte_eq]

/-- Part DELIVERY. -/
theorem deliveryData_eq (du : Du) : deliveryData now du
    = (match du.applied with
      | none => [255, 255]
      | some (n, m) => [n] ++ modeByte m)
    ++ (match du.delivering with
      | none => [255, 255] ++ Config.emptyDeliveringRest.take 23
      | some (g, phase) => [g.number] ++ modeByte g.mode ++ sbytes2 g.swivel ++ sbyte1 g.rowShift
          ++ bytes2 (match g.scene with | none => 65535 | some n => n.toNat) ++ [Config.phaseCode phase]
          ++ listBytes (du.ackSet.map fun m => Config.ackMemberCode m.1 m.2)
          ++ byte1 ((timeLeft now du.applyTimer).getD 255))
    ++ (match du.waiting with
      | none => [255, 255]
      | some g => [g.number] ++ modeByte g.mode) := by
  have applied : numberMode du.applied = (match du.applied with
      | none => [255, 255]
      | some (n, m) => [n] ++ modeByte m) := by
    rcases du.applied with _ | ⟨n, m⟩
    case none => rfl
    case some => exact congrArg ([n] ++ ·) (modeByte_eq m)
  have waiting : numberMode (du.waiting.map fun g => (g.number, g.mode)) = (match du.waiting with
      | none => [255, 255]
      | some g => [g.number] ++ modeByte g.mode) := by
    cases du.waiting
    case none => rfl
    case some g => exact congrArg ([g.number] ++ ·) (modeByte_eq g.mode)
  have delivering : deliveringItems now du = (match du.delivering with
      | none => [255, 255] ++ Config.emptyDeliveringRest.take 23
      | some (g, phase) => [g.number] ++ modeByte g.mode ++ sbytes2 g.swivel ++ sbyte1 g.rowShift
          ++ bytes2 (match g.scene with | none => 65535 | some n => n.toNat) ++ [Config.phaseCode phase]
          ++ listBytes (du.ackSet.map fun m => Config.ackMemberCode m.1 m.2)
          ++ byte1 ((timeLeft now du.applyTimer).getD 255)) := by
    unfold deliveringItems
    rcases du.delivering with _ | ⟨g, phase⟩
    case none => rfl
    case some =>
      have scene : optByte2 g.scene = bytes2 (match g.scene with | none => 65535 | some n => n.toNat) := by
        cases g.scene <;> rfl
      have head : numberMode (some (g.number, g.mode)) = [g.number] ++ modeByte g.mode :=
        congrArg ([g.number] ++ ·) (modeByte_eq g.mode)
      simp only [head, scene, opt1]
  rw [deliveryData, applied, waiting, delivering]

/-- Part PORT. -/
theorem portData_eq (strap : Fin 4) (u : Up) : portData now strap u = [Config.portStateCode u.port] ++ byte1 u.score
    ++ byte1 ((timeLeft now u.recovery).getD 255) ++ byte1 u.objectQ.length ++ byte1 u.vehicleQ.length
    ++ byte1 u.mgmtQ.length ++ byte1 u.replyQ.length ++ byte1 u.passUpQ.length ++ flag1 u.notice.isSome
    ++ flag1 u.held.isSome ++ byte1 strap.val ++ bytes2 (1000 + 2 * strap.val) ++ bytes2 (1001 + 2 * strap.val) := by
  have request : (requestCode strap).toNat = 1000 + 2 * strap.val := (requestCode_iff _ strap).mp rfl
  have reply : (replyCode strap).toNat = 1001 + 2 * strap.val := by
    unfold replyCode
    rw [BitVec.toNat_ofNat, Nat.mod_eq_of_lt (by omega)]
  rw [portData, request, reply]
  rfl

/-! ## Tracks and modules (R59, R121) -/

/-- A row's things in order. -/
theorem cells_eq_map {n : Nat} {α : Type} (r : Row n α) : r.cells = (List.finRange n).map r.get := by
  refine List.ext_getElem (by simp [r.size]) fun i _ _ => ?_
  simp [Row.get]

/-- The data of READ_TRACKS. -/
theorem tracksData_eq (tu : Tu) (n : TrackNo) :
    let count (p : Track → Bool) : Nat := (List.finRange 24).countP fun k => (tu.tracks.get k).any p
    tracksData now tu n = byte1 (count fun _ => true)
      ++ byte1 (count fun t => decide (t.state = .confirmed) && decide (t.cls = .streetlight)) ++ byte1 n.val
      ++ match tu.tracks.get n with
        | none => [255]
        | some t => byte1 ([TrackState.tentative, .confirmed, .coasting].idxOf t.state)
            ++ byte1 ([ObjClass.oncoming, .preceding, .twoWheeler, .pedestrian, .sign, .streetlight].idxOf t.cls)
            ++ [t.id] ++ sbytes2 t.left ++ sbytes2 t.right ++ sbyte1 t.upper ++ sbyte1 (t.lower.getD (-128))
            ++ bytes2 (t.distance.getD 65535) ++ byte1 t.hits ++ bytes2 ((timeLeft now t.hold).getD 65535)
            ++ [t.lastScene] := by
  intro count
  have all : trackCount tu.tracks = count fun _ => true := by
    rw [trackCount, cells_eq_map, List.countP_map]
    refine List.countP_congr fun k _ => ?_
    cases entry : tu.tracks.get k <;> simp [entry]
  have lights : streetlightCount tu.tracks
      = count fun t => decide (t.state = .confirmed) && decide (t.cls = .streetlight) := by
    exact streetlightCount_eq tu.tracks
  rw [tracksData, all, lights]
  unfold trackItems
  cases tu.tracks.get n
  case none => simp only [List.append_assoc]
  case some t => simp only [trackStateNo_place, classNo_place, sopt1, opt2, List.append_assoc]

/-- The data of READ_MODULES. -/
theorem modulesData_eq (e : ModuleEntry) (c : Slc) (k : Slot) (isolation : Bool) :
    let m := c.modules.get k
    modulesData e c k isolation = flag1 e.present ++ byte1 e.firstRow ++ byte1 e.rowCount ++ byte1 e.firstColumn
      ++ byte1 e.columnCount ++ [Config.moduleStateCode m.state] ++ byte1 m.misses ++ byte1 m.band
      ++ listBytes (m.failed.map (BitVec.ofNat 8)) ++ flag1 m.selfFallback
      ++ [Config.outstandingCode (m.outstanding.map Prod.fst), Config.pollEntryCode (c.poll.get k)]
      ++ byte1 c.patternQ.length ++ byte1 c.passQ.length
      ++ [Config.txStateCode (match c.tx with
        | .idle => .idle
        | .waking => .waking
        | .sending _ _ => .sending)]
      ++ byte1 ([Member.pattern, .pass, .pollGroup].idxOf c.lastGranted) ++ byte1 c.lastServed.val ++ flag1 isolation := by
  intro m
  rw [memberNo_place]
  rfl

/-! ## Conditions (R148) -/

/-- The items of the condition of a number. -/
def numberedItems (cm : Cm) (n : Nat) : List Byte :=
  let r := cm.recs.get (Fin.ofNat 16 n)
  let event := decide (n = 1 ∨ n = 2 ∨ n = 3 ∨ n = 12 ∨ n = 15)
  let raw : Nat :=
    if event then 0
    else if 8 ≤ n ∧ n ≤ 11 then
      (if r.rawLeft || r.rawRight then 1 else 0) + (if r.rawLeft then 2 else 0) + (if r.rawRight then 4 else 0)
    else if r.raw then 1 else 0
  byte1 ([CondState.clear, .alert, .fault, .recovering].idxOf r.state) ++ byte1 raw
    ++ byte1 (if event then r.count else 0)
    ++ bytes2 ((timeLeft now (match r.persist with | none => r.recover | some d => some d)).getD 65535)
    ++ flag1 (cm.latched.get (Fin.ofNat 16 n)) ++ bytes2 r.faults

/-- Those kept link by link (R135). -/
theorem condPerLink_iff (c : Cond) : condPerLink c = true ↔ 8 ≤ (condNo c).val ∧ (condNo c).val ≤ 11 := by
  cases c <;> decide

/-- Only level conditions are. -/
theorem condKind_perLink (c : Cond) (perLink : condPerLink c = true) : condKind c = .level := by
  cases c
  case moduleBroken | moduleSelfFallback | segmentFailed | overtemp => rfl
  all_goals cases perLink

/-- A condition's raw byte, by its number. -/
theorem rawByte_eq (c : Cond) (r : CondRec) : rawByte c r = byte1 (
    if decide ((condNo c).val = 1 ∨ (condNo c).val = 2 ∨ (condNo c).val = 3 ∨ (condNo c).val = 12 ∨ (condNo c).val = 15)
      then 0
    else if 8 ≤ (condNo c).val ∧ (condNo c).val ≤ 11 then
      (if r.rawLeft || r.rawRight then 1 else 0) + (if r.rawLeft then 2 else 0) + (if r.rawRight then 4 else 0)
    else if r.raw then 1 else 0) := by
  simp only [← condKind_event, ← condPerLink_iff]
  unfold rawByte condRaw
  cases perLink : condPerLink c
  case true => simp [condKind_perLink c perLink]
  case false => cases kind : condKind c <;> simp

/-- So are its items. -/
theorem conditionItems_eq (cm : Cm) (c : Cond) : conditionItems now cm c = numberedItems now cm (condNo c).val := by
  have place : Fin.ofNat 16 (condNo c).val = condNo c := Fin.ext (Nat.mod_eq_of_lt (condNo c).isLt)
  have timer (r : CondRec) : condTimer r = match r.persist with | none => r.recover | some d => some d := by
    unfold condTimer
    cases r.persist <;> rfl
  unfold conditionItems numberedItems
  dsimp only
  rw [place, rawByte_eq, timer, condStateNo_place]
  simp only [← condKind_event, decide_eq_true_eq, opt2]

/-- The data of READ_CONDITIONS. -/
theorem conditionsData_eq (cm : Cm) {first count : Nat} (few : first + count ≤ 16) : conditionsData now cm first count
    = ((List.range count).flatMap fun k => numberedItems now cm (first + k))
      ++ byte1 ([Action.none, .dim, .lowOnly, .fallback].idxOf cm.action) ++ flag1 cm.outstanding
      ++ (match cm.appliedMode with | none => [255] | some m => modeByte m) ++ flag1 cm.fbk := by
  have conds : (allConds.drop first).take count = (List.range count).map fun k => allConds.getD (first + k) .tableRejected := by
    have sixteen : allConds.length = 16 := rfl
    refine List.ext_getElem (by simp [sixteen]; omega) fun k within_ within' => ?_
    have inside : first + k < allConds.length := by simp at within'; omega
    simp [List.getElem?_eq_getElem inside]
  have number (n : Nat) (small : n < 16) : (condNo (allConds.getD n .tableRejected)).val = n := by
    interval_cases n <;> rfl
  have items : ((allConds.drop first).take count).flatMap (conditionItems now cm)
      = (List.range count).flatMap fun k => numberedItems now cm (first + k) := by
    rw [conds, List.flatMap_map]
    refine List.flatMap_congr fun k mem => ?_
    have small := List.mem_range.mp mem
    rw [conditionItems_eq, number _ (by omega)]
  have mode : opt1 (cm.appliedMode.map fun m => (modeNo m).val)
      = (match cm.appliedMode with | none => [255] | some m => modeByte m) := by
    cases cm.appliedMode
    case none => rfl
    case some m => exact modeByte_eq m
  rw [conditionsData, items, mode, actionNo_place]

end Ages

end Sys2Proof.Machine

/-! Malformed requests and the reading commands (R164, R166 to R168, R172, section 10.2). -/

namespace Sys2Proof.Machine

/-! ## Requests that cannot be carried out for their form (R164) -/

/-- A frame without a tag or without LAST. -/
theorem parseRequest_short {f : UpFrame} (bad : f.payload.length < 2 ∨ f.last = false) :
    parseRequest f = .bad .badArgument := by
  by_cases short : f.payload.length < 2
  · exact if_pos short
  · have open_ : (!f.last) = true := by rw [bad.resolve_left short]; rfl
    exact (if_neg short).trans (if_pos open_)

/-- A code no command has. -/
theorem requestOfCode_unknown {n : Nat} (args : List Byte) (unknown : n = 0 ∨ 20 < n) :
    requestOfCode n args = .bad .unknownCommand := by
  rcases unknown with rfl | high
  · rfl
  · obtain ⟨m, rfl⟩ := Nat.exists_eq_add_of_lt high
    rw [show 20 + m + 1 = m + 21 by omega]
    rfl

/-- A command of another length. -/
theorem ofLength_bad {c : Command} {ok : Bool} {args : List Byte} (other : ok = false) :
    ofLength c ok args = .bad .badArgument := by
  rw [other]
  rfl

/-- Its length is another. -/
theorem length_bne {args : List Byte} {k : Nat} (other : args.length ≠ k) : (args.length == k) = false :=
  beq_eq_false_iff_ne.mpr other

/-- RECOVER of neither form. -/
theorem recoverRequest_bad {args : List Byte} (condition : ∀ n, args ≠ [0, n]) (module : ∀ l k, args ≠ [1, l, k]) :
    recoverRequest args = .bad .badArgument := by
  unfold recoverRequest
  split
  case h_1 n => exact absurd rfl (condition n)
  case h_2 l k => exact absurd rfl (module l k)
  case h_3 => rfl

/-- Every form that no command has (section 11.3). -/
theorem requestOfCode_bad {code : Byte} {args : List Byte}
    (wrong : (code = 1 ∨ 9 ≤ code.toNat ∧ code.toNat ≤ 14 ∨ code = 16 ∨ code = 17 ∨ code = 20) ∧ args.length ≠ 0
      ∨ (code = 2 ∨ code = 3 ∨ code = 15) ∧ args.length ≠ 1 ∨ (code = 4 ∨ code = 5) ∧ args.length ≠ 2
      ∨ (code = 6 ∨ code = 7) ∧ args.length ≠ 4 ∨ code = 8 ∧ args.length < 2 ∨ code = 18 ∧ 16 < args.length
      ∨ code = 19 ∧ (∀ n, args ≠ [0, n]) ∧ (∀ l k, args ≠ [1, l, k])) :
    requestOfCode code.toNat args = .bad .badArgument := by
  rcases wrong with ⟨named, size⟩ | ⟨named, size⟩ | ⟨named, size⟩ | ⟨named, size⟩ | ⟨rfl, size⟩ | ⟨rfl, size⟩
    | ⟨rfl, condition, module⟩
  · rcases named with rfl | ⟨low, high⟩ | rfl | rfl | rfl
    case inr.inl =>
      generalize code.toNat = n at low high
      interval_cases n <;> exact ofLength_bad (length_bne size)
    all_goals exact ofLength_bad (length_bne size)
  · rcases named with rfl | rfl | rfl <;> exact ofLength_bad (length_bne size)
  · rcases named with rfl | rfl <;> exact ofLength_bad (length_bne size)
  · rcases named with rfl | rfl <;> exact ofLength_bad (length_bne size)
  · exact ofLength_bad (decide_eq_false (by omega))
  · exact ofLength_bad (decide_eq_false (by omega))
  · exact recoverRequest_bad condition module

/-- A whole frame is parsed by its code. -/
theorem parseRequest_whole {f : UpFrame} {code tag : Byte} {args : List Byte} (last : f.last = true)
    (payload : f.payload = code :: tag :: args) : parseRequest f = requestOfCode code.toNat args :=
  Asks.parse ⟨last, tag, payload⟩

/-! ## Statistics (R168) -/

section Statistics

variable {n : Nat} {g : StatGroup} {s : State}

/-- The counters of each group. -/
theorem groupCells_eq (said : groupOf n = some g) :
    groupCells g s = [s.vsb.stats.cells, s.sa.stats.cells, s.tu.stats.cells, s.pb.stats.cells,
      s.links.left.stats.cells, s.links.right.stats.cells, s.du.stats.cells, s.cm.stats.cells, s.up.stats.cells,
      s.mu.stats.cells].getD n [] := by
  unfold groupOf at said
  split at said <;> cases said <;> rfl

/-- How many each has. -/
theorem groupCells_length (said : groupOf n = some g) :
    (groupCells g s).length = [7, 11, 14, 4, 13, 13, 9, 3, 19, 4].getD n 0 := by
  unfold groupOf at said
  split at said <;> cases said <;> exact Row.size _

/-- A code above 9 names no group. -/
theorem groupOf_none (none_ : groupOf n = none) : 10 ≤ n := by
  by_contra few
  have small : n < 10 := by omega
  interval_cases n <;> cases none_

/-- A run of counters that fits names a group. -/
theorem group_of_fits {first count : Nat} (some_ : 1 ≤ count)
    (fits : first + count ≤ [7, 11, 14, 4, 13, 13, 9, 3, 19, 4].getD n 0) : ∃ g, groupOf n = some g := by
  cases named : groupOf n
  case some g => exact ⟨g, rfl⟩
  case none =>
    rw [List.getD_eq_default _ _ (groupOf_none named)] at fits
    omega

/-- A run of counters cleared. -/
def clearedRun (first count : Nat) (k : Nat) (r : Row k Nat) : Row k Nat := Row.tabulate fun i =>
  if first ≤ i.val ∧ i.val < first + count then 0 else r.get i

/-- As the machine clears it. -/
theorem clearCells_eq (first count : Nat) {k : Nat} (r : Row k Nat) :
    clearCells first count r = clearedRun first count k r := by
  unfold clearCells clearedRun Row.mapIdx
  congr 1
  funext i
  simp only [Bool.and_eq_true, decide_eq_true_eq]

/-- Of a group by its code. -/
theorem clearGroup_eq (said : groupOf n = some g) (first count : Nat) :
    clearGroup g first count s = match (generalizing := false) n with
    | 0 => { s with vsb := { s.vsb with stats := clearedRun first count 7 s.vsb.stats } }
    | 1 => { s with sa := { s.sa with stats := clearedRun first count 11 s.sa.stats } }
    | 2 => { s with tu := { s.tu with stats := clearedRun first count 14 s.tu.stats } }
    | 3 => { s with pb := { s.pb with stats := clearedRun first count 4 s.pb.stats } }
    | 4 => { s with links := { s.links with
        left := { s.links.left with stats := clearedRun first count 13 s.links.left.stats } } }
    | 5 => { s with links := { s.links with
        right := { s.links.right with stats := clearedRun first count 13 s.links.right.stats } } }
    | 6 => { s with du := { s.du with stats := clearedRun first count 9 s.du.stats } }
    | 7 => { s with cm := { s.cm with stats := clearedRun first count 3 s.cm.stats } }
    | 8 => { s with up := { s.up with stats := clearedRun first count 19 s.up.stats } }
    | _ => { s with mu := { s.mu with stats := clearedRun first count 4 s.mu.stats } } := by
  unfold groupOf at said
  split at said
  case h_11 => cases said
  all_goals
    cases said
    simp only [clearGroup, updLink, clearCells_eq] <;> rfl

end Statistics

/-! ## READ_TABLE (R172) -/

/-- The data of READ_TABLE is the layout of each entry. -/
theorem tableData_eq (i : TableId) (first count : Nat) (x : Tables) :
    tableData i first count x = (List.range count).flatMap fun k => entryLayout i (first + k) x := by
  simp only [tableData, entryBytes_eq_layout]

/-! ## What each reading command comes to (R148, R168, R172) -/

/-- READ_CONDITIONS checks the run it is asked for (R148). -/
theorem readConditions_iff (first count : Byte) :
    (natWithin 1 3 count.toNat && decide (first.toNat ≤ 15) && decide (first.toNat + count.toNat ≤ 16)) = true
      ↔ 1 ≤ count.toNat ∧ count.toNat ≤ 3 ∧ first.toNat ≤ 15 ∧ first.toNat + count.toNat ≤ 16 := by
  simp only [natWithin, Bool.and_eq_true, decide_eq_true_eq, and_assoc]

/-- READ_STATISTICS of a group's counters (R168). -/
theorem carryReadStatistics_ok {group first count clear : Byte} {g : StatGroup} {t : State}
    (named : groupOf group.toNat = some g) (yes : clear.toNat ≤ 1)
    (fits : 1 ≤ count.toNat ∧ count.toNat ≤ 12 ∧ first.toNat + count.toNat ≤ (groupCells g t).length) :
    carryReadStatistics [group, first, count, clear] t = doneWith (statisticsData g first.toNat count.toNat t)
      (if decide (clear = 1) then clearGroup g first.toNat count.toNat t else t) := by
  obtain ⟨some_, few, end_⟩ := fits
  have inside : (natWithin 1 12 count.toNat && decide (first.toNat + count.toNat ≤ (groupCells g t).length)) = true := by
    simp only [natWithin, Bool.and_eq_true, decide_eq_true_eq]
    exact ⟨⟨some_, few⟩, end_⟩
  unfold carryReadStatistics
  rw [show groupOf (u8 [group, first, count, clear] 0) = some g from named,
    show boolOf (u8 [group, first, count, clear] 3) = some (decide (clear = 1)) from boolOf_byte yes]
  exact if_pos inside

/-- Of none. -/
theorem carryReadStatistics_bad {group first count clear : Byte} {t : State}
    (bad : ¬(clear.toNat ≤ 1 ∧ 1 ≤ count.toNat ∧ count.toNat ≤ 12
      ∧ first.toNat + count.toNat ≤ [7, 11, 14, 4, 13, 13, 9, 3, 19, 4].getD group.toNat 0)) :
    carryReadStatistics [group, first, count, clear] t = refuse .badArgument t := by
  unfold carryReadStatistics
  dsimp only
  split
  case h_1 g yes named said =>
    refine if_neg fun inside => bad ?_
    simp only [natWithin, Bool.and_eq_true, decide_eq_true_eq] at inside
    obtain ⟨⟨some_, few⟩, end_⟩ := inside
    have size : (groupCells g t).length = [7, 11, 14, 4, 13, 13, 9, 3, 19, 4].getD group.toNat 0 := groupCells_length named
    have small : clear.toNat ≤ 1 := (boolOf_isSome _).mp (by
      rw [show boolOf clear.toNat = some yes from said]
      rfl)
    exact ⟨small, some_, few, by rw [← size]; exact end_⟩
  all_goals rfl

/-- READ_TABLE of a run of entries (R172). -/
theorem carryReadTable_ok {id copy first count : Byte} {i : TableId} {t : State} (named : id.toNat = tableNo i)
    (yes : copy.toNat ≤ 1) (range : rangeOk i first.toNat count.toNat = true) :
    carryReadTable [id, copy, first, count] t = readCopy i (decide (copy = 1)) first.toNat count.toNat t := by
  unfold carryReadTable
  rw [show tableOf (u8 [id, copy, first, count] 0) = some i from (tableOf_eq_iff i _).mpr named,
    show boolOf (u8 [id, copy, first, count] 1) = some (decide (copy = 1)) from boolOf_byte yes]
  exact if_pos range

/-- Of none. -/
theorem carryReadTable_bad {id copy first count : Byte} {t : State} (bad : ∀ i, ¬(id.toNat = tableNo i
      ∧ copy.toNat ≤ 1 ∧ 1 ≤ count.toNat ∧ count.toNat ≤ entriesPerFrame i ∧ first.toNat + count.toNat ≤ entryCount i)) :
    carryReadTable [id, copy, first, count] t = refuse .badArgument t := by
  unfold carryReadTable
  dsimp only
  split
  case h_1 i yes named said =>
    refine if_neg fun range => bad i ?_
    obtain ⟨⟨some_, most⟩, end_⟩ := (rangeOk_iff ..).mp range
    have small : copy.toNat ≤ 1 := (boolOf_isSome _).mp (by
      rw [show boolOf copy.toNat = some yes from said]
      rfl)
    exact ⟨(tableOf_eq_iff i _).mp named, small, some_, most, end_⟩
  all_goals rfl

/-! ## Each reading command (section 10.2) -/

section Commands

variable {s : State} {f : UpFrame} {rest : List UpFrame} (takes : Takes s f rest)
include takes

/-- A command that answers with data. -/
theorem Takes.carriesData {c : Command} {run : List Byte → State → Carried} {args data : List Byte} {u : State}
    (asks : parseRequest f = .command c args) (carried : run args (afterTaking rest s) = doneWith data u) :
    takeCommand c run s = .next (answered f .done data false u) :=
  takes.carries asks carried

/-- READ_STATE of a part (R167). -/
theorem exec_readState {part : Byte} {data : List Byte} (asks : Asks f 2 [part])
    (said : stateData part.toNat (afterTaking rest s) = some data) :
    exec .readState s = .next (answered f .done data false (afterTaking rest s)) := by
  refine takes.carriesData (run := carryReadState) asks.parse ?_
  unfold carryReadState
  rw [show stateData (u8 [part] 0) (afterTaking rest s) = some data from said]

/-- Of none. -/
theorem exec_readState_bad {part : Byte} (asks : Asks f 2 [part]) (other : 5 ≤ part.toNat) :
    exec .readState s = .next (answered f .badArgument [] false (afterTaking rest s)) := by
  have none_ (u : State) : stateData part.toNat u = none := by
    obtain ⟨m, number⟩ := Nat.exists_eq_add_of_le other
    rw [number, Nat.add_comm]
    rfl
  refine takes.carriesPlain (run := carryReadState) asks.parse ?_
  unfold carryReadState
  rw [show stateData (u8 [part] 0) (afterTaking rest s) = none from none_ _]
  rfl

/-- READ_TRACKS (R59). -/
theorem exec_readTracks {n : Byte} {k : TrackNo} (asks : Asks f 3 [n]) (number : n.toNat = k.val) :
    exec .readTracks s = .next (answered f .done (tracksData s.now s.tu k) false (afterTaking rest s)) := by
  have small : u8 [n] 0 < 24 := lt_of_eq_of_lt number k.isLt
  have place : (⟨u8 [n] 0, small⟩ : TrackNo) = k := Fin.ext number
  refine takes.carriesData (run := carryReadTracks) asks.parse ((dif_pos small).trans ?_)
  rw [place]
  rfl

/-- Of no entry. -/
theorem exec_readTracks_bad {n : Byte} (asks : Asks f 3 [n]) (other : 24 ≤ n.toNat) :
    exec .readTracks s = .next (answered f .badArgument [] false (afterTaking rest s)) :=
  takes.carriesPlain (run := carryReadTracks) asks.parse (dif_neg (show ¬u8 [n] 0 < 24 from Nat.not_lt.mpr other))

/-- READ_MODULES (R121). -/
theorem exec_readModules {l k : Byte} {link : Link} {slot : Slot} (asks : Asks f 4 [l, k]) (named : l.toNat = linkNo link)
    (number : k.toNat = slot.val) : exec .readModules s = .next (answered f .done
      (modulesData ((s.mu.tables.modules.get link).get slot) (s.links.get link) slot s.mu.isolation) false
      (afterTaking rest s)) := by
  refine takes.carriesData (run := carryReadModules) asks.parse ?_
  unfold carryReadModules
  rw [show linkOf (u8 [l, k] 0) = some link from linkOf_linkNo link _ named,
    show slotOf (u8 [l, k] 1) = some slot from slotOf_val slot _ number]
  rfl

/-- Of no slot. -/
theorem exec_readModules_bad {l k : Byte} (asks : Asks f 4 [l, k]) (other : 1 < l.toNat ∨ 3 < k.toNat) :
    exec .readModules s = .next (answered f .badArgument [] false (afterTaking rest s)) := by
  refine takes.carriesPlain (run := carryReadModules) asks.parse ?_
  unfold carryReadModules
  rcases other with link | slot
  · rw [show linkOf (u8 [l, k] 0) = none from linkOf_none link]
    rfl
  · rw [show slotOf (u8 [l, k] 1) = none from slotOf_none slot]
    cases linkOf (u8 [l, k] 0) <;> rfl

end Commands

/-- Settles O52. -/
theorem malformedAndReadingRequestsAreAnswered : Obligations.MalformedAndReadingRequestsAreAnswered := by
  refine ⟨fun s f rest takes => ?_, fun n x b => ⟨rfl, rfl, rfl, sbytes2_eq x, rfl⟩, replyPayload_eq, fun mu => rfl,
    fun now => ?_⟩
  case refine_2 =>
    exact ⟨motionData_eq now, otherData_eq now, buildData_eq, deliveryData_eq now, portData_eq now, tracksData_eq now,
      modulesData_eq, fun cm first count few => conditionsData_eq now cm few⟩
  case refine_1 =>
    intro t answers
    refine ⟨fun short => malformed_eq takes _ (parseRequest_short short), fun code tag args last payload => ⟨fun unknown => ?_,
      fun wrong => ?_⟩, fun asks => takes.carriesData (run := carryReadInfo) asks.parse rfl, fun part asks => ?_,
      fun n asks => ⟨fun k => exec_readTracks takes asks, exec_readTracks_bad takes asks⟩,
      fun l k asks => ⟨fun link slot named => ?_, exec_readModules_bad takes asks⟩, fun first count asks => ?_,
      fun group first count clear asks => ?_, fun id copy first count asks => ?_⟩
    · exact malformed_eq takes _ ((parseRequest_whole last payload).trans (requestOfCode_unknown args unknown))
    · exact malformed_eq takes _ ((parseRequest_whole last payload).trans (requestOfCode_bad wrong))
    · refine ⟨fun part => ?_, fun part => ?_, fun part => ?_, fun part => ?_, fun part => ?_, exec_readState_bad takes asks⟩
      all_goals
        subst part
        exact exec_readState takes asks rfl
    · refine exec_readModules takes asks (named.trans ?_)
      cases link <;> rfl
    · exact ⟨fun ok => takes.carriesData (run := carryReadConditions) asks.parse
        (if_pos ((readConditions_iff first count).mpr ok)),
        fun bad => takes.carriesPlain (run := carryReadConditions) asks.parse
          (if_neg (mt (readConditions_iff first count).mp bad))⟩
    · intro size ok cells data cleared
      refine ⟨fun bad => takes.carriesPlain asks.parse (carryReadStatistics_bad bad), fun fits clear => ?_,
        fun fits clear => ?_⟩
      all_goals
        subst clear
        obtain ⟨yes, some_, few, end_⟩ := fits
        obtain ⟨g, named⟩ := group_of_fits some_ end_
        have inside := end_.trans_eq (groupCells_length (s := t) named).symm
        have carried := carryReadStatistics_ok named yes ⟨some_, few, inside⟩
        rw [statisticsData, groupCells_eq named] at carried
      · exact takes.carriesData asks.parse carried
      · rw [if_pos (by rfl), clearGroup_eq named] at carried
        exact takes.carriesData asks.parse carried
    · intro run data
      refine ⟨fun bad => takes.carriesPlain asks.parse (carryReadTable_bad bad), fun i ok => ?_⟩
      obtain ⟨named, yes, some_, most, end_⟩ := ok
      have carried := carryReadTable_ok (t := t) named yes ((rangeOk_iff ..).mpr ⟨⟨some_, most⟩, end_⟩)
      refine ⟨fun live => ?_, fun staged none_ => ?_, fun staged held => ?_⟩
      · subst live
        exact takes.carriesData asks.parse (carried.trans (congrArg (doneWith · t) (tableData_eq i _ _ _)))
      · subst staged
        have missing : ¬isStaged t.mu.staged i = true := Bool.eq_false_iff.mp none_
        exact takes.carriesPlain asks.parse (carried.trans (if_neg missing))
      · subst staged
        have there : isStaged t.mu.staged i = true := held
        exact takes.carriesData asks.parse
          (carried.trans ((if_pos there).trans (congrArg (doneWith · t) (tableData_eq i _ _ _))))

end Sys2Proof.Machine

/-! Frames read from their wire bytes (sections 9.1, 6.3 and 11.1; R104, R150, R179). -/

namespace Sys2Proof.Machine

/-! ## The upstream envelope (R150) -/

section Upstream

variable {bs : List Byte}

/-- Its stream code. -/
theorem envelopeCode_toNat (bs : List Byte) : (envelopeCode bs).toNat = 4 * u8 bs 0 + u8 bs 1 / 64 := by
  have high : u8 bs 0 < 256 := BitVec.isLt _
  have low : u8 bs 1 < 256 := BitVec.isLt _
  unfold envelopeCode
  rw [BitVec.toNat_ofNat]
  omega

/-- Its sequence number. -/
theorem envelopeSeq_toNat (bs : List Byte) : (envelopeSeq bs).toNat = u8 bs 1 / 4 % 16 := by
  unfold envelopeSeq u8
  rw [BitVec.extractLsb'_toNat, Nat.shiftRight_eq_div_pow]

/-- Its LAST. -/
theorem envelopeLast_iff (bs : List Byte) : envelopeLast bs = true ↔ u8 bs 1 / 2 % 2 = 1 := by
  unfold envelopeLast u8
  rw [BitVec.getLsbD, Nat.testBit_eq_decide_div_mod_eq, decide_eq_true_eq, pow_one]

/-- Bytes that end before the envelope does. -/
theorem upArrival_cut (short : bs.length < 3 ∨ 3 ≤ bs.length ∧ u8 bs 2 ≤ 32 ∧ bs.length < 3 + u8 bs 2 + 2) :
    upArrival bs = .cut := by
  unfold upArrival
  rcases short with short | ⟨long, fits, short⟩
  · exact if_pos short
  · exact (if_neg (Nat.not_lt.mpr long)).trans ((if_neg (Nat.not_lt.mpr fits)).trans (if_pos short))

/-- A length above 32. -/
theorem upArrival_long (long : 3 ≤ bs.length) (high : 32 < u8 bs 2) : upArrival bs = .long := by
  exact (if_neg (Nat.not_lt.mpr long)).trans (if_pos high)

/-- A whole envelope, by its check value. -/
theorem upArrival_whole (long : 3 ≤ bs.length) (fits : u8 bs 2 ≤ 32) (whole : 3 + u8 bs 2 + 2 ≤ bs.length) :
    upArrival bs = if (bs.drop (3 + u8 bs 2)).take 2 ≠ checkBytes (bs.take (3 + u8 bs 2)) then .badCheck
      else .good ⟨envelopeCode bs, envelopeSeq bs, envelopeLast bs, (bs.drop 3).take (u8 bs 2)⟩ := by
  exact (if_neg (Nat.not_lt.mpr long)).trans ((if_neg (Nat.not_lt.mpr fits)).trans (if_neg (Nat.not_lt.mpr whole)))

/-- What stands where in a frame sent with its check value. -/
theorem withCheck_parts {head payload : List Byte} (three : head.length = 3) :
    let wire := withCheck (head ++ payload)
    wire.length = 3 + payload.length + 2 ∧ wire.take (3 + payload.length) = head ++ payload
      ∧ (wire.drop (3 + payload.length)).take 2 = checkBytes (head ++ payload)
      ∧ (wire.drop 3).take payload.length = payload := by
  have body : (head ++ payload).length = 3 + payload.length := by rw [List.length_append, three]
  intro wire
  have wire_eq : wire = head ++ payload ++ checkBytes (head ++ payload) := rfl
  refine ⟨?_, ?_, ?_, ?_⟩
  · rw [wire_eq, List.length_append, body, checkBytes_length]
  · rw [wire_eq, ← body, List.take_left]
  · rw [wire_eq, ← body, List.drop_left]
    rfl
  · rw [wire_eq, List.append_assoc, ← three, List.drop_left, List.take_left]

/-- A frame sent is received as itself. -/
theorem upArrival_upWire {f : UpFrame} (fits : f.payload.length ≤ 32) : upArrival (upWire f) = .good f := by
  have three : (envelopeHead f.code f.seq f.last f.payload.length).length = 3 := rfl
  obtain ⟨size, body, check, payload⟩ := withCheck_parts (payload := f.payload) three
  have length : u8 (upWire f) 2 = f.payload.length := by
    have byte : u8 (upWire f) 2 = f.payload.length % 256 := BitVec.toNat_ofNat ..
    rw [byte, Nat.mod_eq_of_lt (by omega)]
  obtain ⟨code, seq, last⟩ := envelopeHead_reads f.code f.seq f.last f.payload.length
    (f.payload ++ checkBytes (envelopeHead f.code f.seq f.last f.payload.length ++ f.payload))
  rw [← List.append_assoc] at code seq last
  have wire : upWire f = withCheck (envelopeHead f.code f.seq f.last f.payload.length ++ f.payload) := rfl
  rw [← wire] at size body check payload
  rw [upArrival_whole (by omega) (by omega) (by omega), length, body, check, payload, if_neg (not_not.mpr rfl)]
  have code' : envelopeCode (upWire f) = f.code := code
  have seq' : envelopeSeq (upWire f) = f.seq := seq
  have last' : envelopeLast (upWire f) = f.last := last
  rw [code', seq', last']

end Upstream

/-! ## The payloads of the frames of a link (section 11.4, R104, R179) -/

section Payloads

variable {p : List Byte} {slot k : Slot}

/-- Whether two members are equal. -/
theorem hasRepeat_iff (l : List Nat) : hasRepeat l = false ↔ l.Nodup := by
  induction l with
  | nil => simp [hasRepeat]
  | cons x xs ih => simp [hasRepeat, ih]

/-- A yes/no byte, as the flag it says. -/
theorem boolOf_iff {n : Nat} {b : Bool} : boolOf n = some b ↔ n ≤ 1 ∧ (b = true ↔ n = 1) := by
  rw [boolOf_eq_some]
  cases b
  case false => simp; omega
  case true => simp; omega

/-- A STATUS that passes. -/
theorem parseStatus_eq_some {band : Nat} {flag : Bool} {failed : List Nat} :
    parseStatus slot p = some (.status k band flag failed) ↔ k = slot ∧ p.length = 2 * ((3 + u8 p 2 + 1) / 2)
      ∧ band = u8 p 0 ∧ band ≤ 7 ∧ u8 p 1 ≤ 1 ∧ (flag = true ↔ u8 p 1 = 1) ∧ u8 p 2 ≤ 8
      ∧ failed = (List.range (u8 p 2)).map (fun j => u8 p (3 + j)) ∧ failed.Nodup := by
  simp only [parseStatus, Option.ite_none_left_eq_some, Bool.or_eq_true, decide_eq_true_eq, not_or, Nat.not_lt,
    Option.map_eq_some_iff, ModuleFrame.status.injEq, boolOf_iff, Bool.not_eq_true, hasRepeat_iff, not_not]
  constructor
  · rintro ⟨⟨⟨⟨⟨_, band_⟩, few⟩, size⟩, nodup⟩, b, ⟨small, flag_⟩, rfl, rfl, rfl, rfl⟩
    exact ⟨rfl, size, rfl, band_, small, flag_, few, rfl, nodup⟩
  · rintro ⟨rfl, size, rfl, band_, small, flag_, few, rfl, nodup⟩
    exact ⟨⟨⟨⟨⟨by omega, band_⟩, few⟩, size⟩, nodup⟩, flag, ⟨small, flag_⟩, rfl, rfl, rfl, rfl⟩

/-- A PASS_UP that passes. -/
theorem parsePassUp_eq_some {code : Nat} {payload : List Byte} :
    parsePassUp slot p = some (.passUp k code payload) ↔ k = slot ∧ p.length = 2 * ((3 + u8 p 2 + 1) / 2)
      ∧ u8 p 2 ≤ 32 ∧ code = u16 p 0 ∧ payload = (p.drop 3).take (u8 p 2) := by
  simp only [parsePassUp, Option.ite_none_left_eq_some, Bool.or_eq_true, decide_eq_true_eq, not_or, Nat.not_lt,
    Option.some.injEq, ModuleFrame.passUp.injEq, not_not]
  constructor
  · rintro ⟨⟨⟨_, few⟩, size⟩, rfl, rfl, rfl⟩
    exact ⟨rfl, size, few, rfl, rfl⟩
  · rintro ⟨rfl, size, few, rfl, rfl⟩
    exact ⟨⟨⟨by omega, few⟩, size⟩, rfl, rfl, rfl⟩

/-- What each kind allows. -/
theorem parseModuleFrame_eq_some {kind : Nat} (f : ModuleFrame) : parseModuleFrame kind slot p = some f ↔ match f with
    | .blockAck k gen => kind = 32 ∧ k = slot ∧ p.length = 2 ∧ gen = p.getD 0 0
    | .status k band flag failed => kind = 33 ∧ parseStatus slot p = some (.status k band flag failed)
    | .passUp k code payload => kind = 34 ∧ parsePassUp slot p = some (.passUp k code payload) := by
  unfold parseModuleFrame
  split
  case h_1 =>
    cases f
    case blockAck => simp [eq_comm, and_left_comm]
    all_goals simp
  case h_2 =>
    cases f
    case status => simp
    all_goals simp [parseStatus]
  case h_3 =>
    cases f
    case passUp => simp
    all_goals simp [parsePassUp]
  case h_4 no32 no33 no34 =>
    cases f
    case blockAck => exact ⟨nofun, fun said => absurd said.1 no32⟩
    case status => exact ⟨nofun, fun said => absurd said.1 no33⟩
    case passUp => exact ⟨nofun, fun said => absurd said.1 no34⟩

end Payloads

/-! ## The envelope of a link (R104) -/

section Links

variable {bs : List Byte}

/-- Bytes in error: too few, too long, or with another check value. -/
def LinkError (bs : List Byte) : Prop := bs.length < 3 ∨ 32 < u8 bs 2 ∨ bs.length < 3 + 2 * u8 bs 2 + 2
  ∨ (bs.drop (3 + 2 * u8 bs 2)).take 2 ≠ checkBytes (bs.take (3 + 2 * u8 bs 2))

/-- The module address of an envelope. -/
def slotBits (bs : List Byte) : Slot := Fin.ofNat 4 (u8 bs 1 / 64)

/-- What bytes in order hold. -/
theorem linkArrival_sound (sound : ¬LinkError bs) : linkArrival bs
    = match parseModuleFrame (u8 bs 0) (slotBits bs) ((bs.drop 3).take (2 * u8 bs 2)) with
      | none => .rejected
      | some f => .good f := by
  have low : u8 bs 1 < 256 := BitVec.isLt _
  simp only [LinkError, not_or, not_not, Nat.not_lt] at sound
  obtain ⟨long, fits, whole, check⟩ := sound
  have head : (decide (bs.length < 3) || decide (maxPayload < u8 bs 2) || decide (bs.length < 3 + 2 * u8 bs 2 + 2))
      = false := by
    simp only [Bool.or_eq_false_iff, decide_eq_false_iff_not, Nat.not_lt]
    exact ⟨⟨long, fits⟩, whole⟩
  have kind : (envelopeCode bs).toNat / 4 = u8 bs 0 := by rw [envelopeCode_toNat]; omega
  have slot : Fin.ofNat 4 (envelopeCode bs).toNat = slotBits bs := by
    refine Fin.ext ?_
    have value : (envelopeCode bs).toNat % 4 = u8 bs 1 / 64 % 4 := by rw [envelopeCode_toNat]; omega
    exact value
  unfold linkArrival
  rw [head, if_neg Bool.false_ne_true, if_neg (not_not.mpr check)]
  dsimp only
  rw [kind, slot] <;> rfl

/-- And bytes in error. -/
theorem linkArrival_unsound (bad : LinkError bs) : linkArrival bs = .error := by
  unfold linkArrival
  by_cases head : (decide (bs.length < 3) || decide (maxPayload < u8 bs 2)
      || decide (bs.length < 3 + 2 * u8 bs 2 + 2)) = true
  · exact if_pos head
  · have check : (bs.drop (3 + 2 * u8 bs 2)).take 2 ≠ checkBytes (bs.take (3 + 2 * u8 bs 2)) := by
      simp only [Bool.or_eq_true, decide_eq_true_eq, not_or] at head
      obtain ⟨⟨long, fits⟩, whole⟩ := head
      exact ((bad.resolve_left long).resolve_left fits).resolve_left whole
    exact (if_neg head).trans (if_pos check)

/-- Bytes are an error just then. -/
theorem linkArrival_error : linkArrival bs = .error ↔ LinkError bs := by
  constructor
  · intro error
    by_contra sound
    rw [linkArrival_sound sound] at error
    split at error <;> cases error
  · exact linkArrival_unsound

/-- And good just where they are not and their payload passes. -/
theorem linkArrival_eq_good {f : ModuleFrame} : linkArrival bs = .good f ↔ ¬LinkError bs
    ∧ parseModuleFrame (u8 bs 0) (slotBits bs) ((bs.drop 3).take (2 * u8 bs 2)) = some f := by
  by_cases bad : LinkError bs
  · simp [linkArrival_unsound bad, bad]
  · rw [linkArrival_sound bad]
    split
    case h_1 none_ => simp [none_]
    case h_2 g some_ => simp [some_, bad]

/-- The module address by its bits. -/
theorem slotBits_iff (k : Slot) : k = slotBits bs ↔ k.val = u8 bs 1 / 64 := by
  have low : u8 bs 1 < 256 := BitVec.isLt _
  have value : (slotBits bs).val = u8 bs 1 / 64 := Nat.mod_eq_of_lt (by omega)
  rw [Fin.ext_iff, value]

/-- The payload of a link's frame: its length, and its bytes. -/
theorem linkPayload (sound : ¬LinkError bs) : ((bs.drop 3).take (2 * u8 bs 2)).length = 2 * u8 bs 2
    ∧ ∀ i < 2 * u8 bs 2, ((bs.drop 3).take (2 * u8 bs 2)).getD i 0 = bs.getD (3 + i) 0 := by
  simp only [LinkError, not_or, not_not, Nat.not_lt] at sound
  obtain ⟨long, fits, whole, check⟩ := sound
  refine ⟨by rw [List.length_take, List.length_drop]; omega, fun i inside => ?_⟩
  simp [List.getD_eq_getElem?_getD, inside]

/-- Which bytes are a frame from a module, and which (R104, section 11.4). -/
theorem linkArrival_good_iff (f : ModuleFrame) : linkArrival bs = .good f ↔ ¬LinkError bs ∧ match f with
    | .blockAck k gen => u8 bs 0 = 32 ∧ k.val = u8 bs 1 / 64 ∧ u8 bs 2 = 1 ∧ gen.toNat = u8 bs 3
    | .status k band flag failed => u8 bs 0 = 33 ∧ k.val = u8 bs 1 / 64 ∧ u8 bs 2 = (3 + u8 bs 5 + 1) / 2
      ∧ band = u8 bs 3 ∧ band ≤ 7 ∧ u8 bs 4 ≤ 1 ∧ (flag = true ↔ u8 bs 4 = 1) ∧ u8 bs 5 ≤ 8
      ∧ failed = (List.range (u8 bs 5)).map (fun j => u8 bs (6 + j)) ∧ failed.Nodup
    | .passUp k code payload => u8 bs 0 = 34 ∧ k.val = u8 bs 1 / 64 ∧ u8 bs 2 = (3 + u8 bs 5 + 1) / 2 ∧ u8 bs 5 ≤ 32
      ∧ code = 256 * u8 bs 3 + u8 bs 4 ∧ payload = (bs.drop 6).take (u8 bs 5) := by
  rw [linkArrival_eq_good]
  refine and_congr_right fun sound => ?_
  obtain ⟨size, byte⟩ := linkPayload sound
  have number (i : Nat) (inside : i < 2 * u8 bs 2) : u8 ((bs.drop 3).take (2 * u8 bs 2)) i = u8 bs (3 + i) :=
    congrArg BitVec.toNat (byte i inside)
  rw [parseModuleFrame_eq_some]
  cases f
  case blockAck k gen =>
    dsimp only
    rw [slotBits_iff, size]
    refine and_congr_right fun _ => and_congr_right fun _ => ⟨?_, ?_⟩
    · rintro ⟨one, rfl⟩
      exact ⟨by omega, congrArg BitVec.toNat (byte 0 (by omega))⟩
    · rintro ⟨one, said⟩
      exact ⟨by omega, BitVec.eq_of_toNat_eq (said.trans (number 0 (by omega)).symm)⟩
  case status k band flag failed =>
    dsimp only
    rw [parseStatus_eq_some, slotBits_iff, size]
    by_cases room : 2 ≤ u8 bs 2
    · rw [number 0 (by omega), number 1 (by omega), number 2 (by omega)]
      have fills : 2 * u8 bs 2 = 2 * ((3 + u8 bs (3 + 2) + 1) / 2) ↔ u8 bs 2 = (3 + u8 bs 5 + 1) / 2 := by
        show 2 * u8 bs 2 = 2 * ((3 + u8 bs 5 + 1) / 2) ↔ _
        omega
      rw [fills]
      refine and_congr_right fun _ => and_congr_right fun _ => and_congr_right fun filled => ?_
      have members : (List.range (u8 bs (3 + 2))).map (fun j => u8 ((bs.drop 3).take (2 * u8 bs 2)) (3 + j))
          = (List.range (u8 bs 5)).map fun j => u8 bs (6 + j) := by
        refine List.map_congr_left fun j mem => ?_
        have below : j < u8 bs 5 := List.mem_range.mp mem
        rw [number (3 + j) (by omega), ← Nat.add_assoc]
      rw [members]
    · constructor
      · rintro ⟨_, _, filled, _⟩
        omega
      · rintro ⟨_, _, filled, _⟩
        omega
  case passUp k code payload =>
    dsimp only
    rw [parsePassUp_eq_some, slotBits_iff, size]
    by_cases room : 2 ≤ u8 bs 2
    · have word : u16 ((bs.drop 3).take (2 * u8 bs 2)) 0 = 256 * u8 bs 3 + u8 bs 4 := by
        rw [u16, number 0 (by omega), number 1 (by omega), Nat.mul_comm]
      rw [number 2 (by omega), word]
      have fills : 2 * u8 bs 2 = 2 * ((3 + u8 bs (3 + 2) + 1) / 2) ↔ u8 bs 2 = (3 + u8 bs 5 + 1) / 2 := by
        show 2 * u8 bs 2 = 2 * ((3 + u8 bs 5 + 1) / 2) ↔ _
        omega
      rw [fills]
      refine and_congr_right fun _ => and_congr_right fun _ => and_congr_right fun filled => ?_
      have inner : (((bs.drop 3).take (2 * u8 bs 2)).drop 3).take (u8 bs (3 + 2)) = (bs.drop 6).take (u8 bs 5) := by
        have enough : u8 bs 5 ≤ 2 * u8 bs 2 - 3 := by omega
        rw [List.drop_take, List.drop_drop, List.take_take]
        exact congrArg (fun n => (bs.drop 6).take n) (Nat.min_eq_left enough)
      rw [inner]
    · constructor
      · rintro ⟨_, _, filled, _⟩
        omega
      · rintro ⟨_, _, filled, _⟩
        omega

end Links

/-! ## Frames of a module as sent (section 11.4) -/

section Sent

/-- A payload filled to whole words. -/
def padded (pad : Byte) (payload : List Byte) : List Byte :=
  if payload.length % 2 = 0 then payload else payload ++ [pad]

/-- It is the payload, and a pad where its length is odd. -/
theorem padded_eq (pad : Byte) (payload : List Byte) : ∃ fill, padded pad payload = payload ++ fill
    ∧ (padded pad payload).length = 2 * ((payload.length + 1) / 2) := by
  unfold padded
  split
  · exact ⟨[], (List.append_nil _).symm, by omega⟩
  · exact ⟨[pad], rfl, by rw [List.length_append, List.length_singleton]; omega⟩

/-- A frame of whole words is received where its payload passes. -/
theorem linkArrival_padded {kind : Nat} (small : kind < 256) (k : Slot) (seq : BitVec 4) (last : Bool) (pad : Byte)
    {payload : List Byte} (fits : payload.length ≤ 63) {f : ModuleFrame}
    (parses : parseModuleFrame kind k (padded pad payload) = some f) :
    linkArrival (withCheck (envelopeHead (BitVec.ofNat 10 (4 * kind + k.val)) seq last ((padded pad payload).length / 2)
      ++ padded pad payload)) = .good f := by
  obtain ⟨_, _, size⟩ := padded_eq pad payload
  exact linkArrival_good kind small k seq last _ _ (by omega) (by omega) f parses

/-- The bytes of a STATUS parse. -/
theorem parse_status (k : Slot) (pad : Byte) {band : Nat} (sf : Bool) {failed : List Byte} (low : band ≤ 7)
    (few : failed.length ≤ 8) (nodup : failed.Nodup) :
    parseModuleFrame 33 k (padded pad (BitVec.ofNat 8 band :: (if sf then 1 else 0) :: BitVec.ofNat 8 failed.length :: failed))
      = some (.status k band sf (failed.map BitVec.toNat)) := by
  obtain ⟨fill, body, size⟩ := padded_eq pad
    (BitVec.ofNat 8 band :: (if sf then 1 else 0) :: BitVec.ofNat 8 failed.length :: failed)
  refine (parseModuleFrame_eq_some _).mpr ⟨rfl, parseStatus_eq_some.mpr ?_⟩
  generalize padded pad _ = p at body size
  have first : u8 p 0 = band := by
    have byte : u8 p 0 = band % 256 := by rw [body]; exact BitVec.toNat_ofNat ..
    omega
  have second : u8 p 1 = if sf then 1 else 0 := by
    rw [body]
    cases sf <;> rfl
  have third : u8 p 2 = failed.length := by
    have byte : u8 p 2 = failed.length % 256 := by rw [body]; exact BitVec.toNat_ofNat ..
    omega
  have members : failed.map BitVec.toNat = (List.range failed.length).map fun j => u8 p (3 + j) := by
    refine List.ext_getElem (by simp) fun j inside _ => ?_
    have inside' : j < failed.length := by simpa using inside
    have place : p.getD (3 + j) 0 = (failed ++ fill).getD j 0 := by
      rw [body, Nat.add_comm]
      rfl
    have own : (failed ++ fill)[j]? = some failed[j] := by
      rw [List.getElem?_append_left inside', List.getElem?_eq_getElem inside']
    rw [List.getElem_map, List.getElem_map, List.getElem_range, u8, place, List.getD_eq_getElem?_getD, own]
    rfl
  rw [first, second, third]
  refine ⟨rfl, ?_, rfl, low, ?_, ?_, few, members, nodup.map fun _ _ => BitVec.eq_of_toNat_eq⟩
  · rw [size]
    simp only [List.length_cons]
    omega
  · cases sf <;> decide
  · cases sf <;> decide

/-- So do those of a PASS_UP. -/
theorem parse_passUp (k : Slot) (pad : Byte) {code : Nat} {payload : List Byte} (number : code < 65536)
    (few : payload.length ≤ 32) :
    parseModuleFrame 34 k (padded pad (bytes2 code ++ BitVec.ofNat 8 payload.length :: payload))
      = some (.passUp k code payload) := by
  obtain ⟨fill, body, size⟩ := padded_eq pad (bytes2 code ++ BitVec.ofNat 8 payload.length :: payload)
  refine (parseModuleFrame_eq_some _).mpr ⟨rfl, parsePassUp_eq_some.mpr ?_⟩
  generalize padded pad _ = p at body size
  have third : u8 p 2 = payload.length := by
    have byte : u8 p 2 = payload.length % 256 := by rw [body]; exact BitVec.toNat_ofNat ..
    omega
  have word : u16 p 0 = code := by
    rw [body, List.append_assoc]
    exact u16_bytes2 number _
  have tail : p.drop 3 = payload ++ fill := by
    rw [body]
    rfl
  rw [third, word, tail, List.take_left]
  refine ⟨rfl, ?_, few, rfl, rfl⟩
  rw [size]
  simp only [bytes2, List.length_append, List.length_cons, List.length_nil]
  omega

/-- And a BLOCK_ACK. -/
theorem parse_blockAck (k : Slot) (gen pad : Byte) : parseModuleFrame 32 k [gen, pad] = some (.blockAck k gen) := rfl

end Sent

/-- Settles O41: both envelopes, their check value, and the payloads of a link. -/
theorem framesDecodeFromTheirWire : Obligations.FramesDecodeFromTheirWire := by
  refine ⟨fun f => upArrival_upWire, fun bs => ?_, fun bs => ?_, fun bs => ?_, fun k seq last pad => ?_⟩
  · intro n whole sound
    refine ⟨fun short => upArrival_cut (.inl short), upArrival_long,
      fun long fits short => upArrival_cut (.inr ⟨long, fits, short⟩), fun ⟨long, fits, end_⟩ bad => ?_,
      fun ⟨long, fits, end_⟩ good => ?_⟩
    · exact (upArrival_whole long fits end_).trans (if_pos bad)
    · exact ⟨_, (upArrival_whole long fits end_).trans (if_neg (not_not.mpr good)), envelopeCode_toNat bs,
        envelopeSeq_toNat bs, envelopeLast_iff bs, rfl⟩
  · intro bits divide check
    exact congrArg (fun x : BitVec 16 => bytes2 x.toNat) (checkValue_eq_divide bs)
  · exact ⟨linkArrival_error, linkArrival_good_iff⟩
  · intro wire padded_
    refine ⟨fun gen => ?_, fun band sf failed low few nodup => ?_, fun code payload number few => ?_⟩
    · exact linkArrival_good 32 (by decide) k seq last 1 [gen, pad] rfl (by decide) _ (parse_blockAck k gen pad)
    · exact linkArrival_padded (by decide) k seq last pad (by simp only [List.length_cons]; omega)
        (parse_status k pad sf low few nodup)
    · exact linkArrival_padded (by decide) k seq last pad
        (by simp only [bytes2, List.length_append, List.length_cons, List.length_nil]; omega)
        (parse_passUp k pad number few)

end Sys2Proof.Machine

/-! The levels of a segment: shadows, fixed windows, derating and the hard limits (R71, R81 to R97). -/

namespace Sys2Proof.Machine

/-! ## Covering and shadow boxes (R83 to R85) -/

/-- A box covers a segment where each of its edges reaches the segment's span. -/
theorem covers_iff (g : SegMapEntry) (x : AngleBox) (i : SegNo) :
    covers g x i = true ↔ 2 * x.left < columnHi2 g (segColumn i) ∧ columnLo2 g (segColumn i) ≤ 2 * x.right
      ∧ rowLo2 g (segRow i) ≤ 2 * x.upper ∧ ∀ y ∈ x.lower, 2 * y < rowHi2 g (segRow i) := by
  have lower : lowerReaches x.lower (rowHi2 g (segRow i)) = true ↔ ∀ y ∈ x.lower, 2 * y < rowHi2 g (segRow i) := by
    cases x.lower <;> simp [lowerReaches]
  simp only [covers, Bool.and_eq_true, decide_eq_true_eq, lower, and_assoc]

/-- The extra of the lowest band that reaches the distance. -/
theorem extraOf_reached {m : MarginTable} {d : Nat} {k : Fin 4} (reaches : d ≤ (m.bands.get k).bound)
    (lowest : ∀ j < k, (m.bands.get j).bound < d) : extraOf m (some d) = (m.bands.get k).extra := by
  have found : ((List.finRange 4).find? fun j => decide (d ≤ (m.bands.get j).bound)) = some k :=
    find?_finRange_least (decide_eq_true reaches) fun j passes =>
      not_lt.mp fun before => absurd (lowest j before) (not_lt.mpr (of_decide_eq_true passes))
  simp only [extraOf, found, Option.getD_some]

/-- The extra of the last band where none reaches the distance. -/
theorem extraOf_beyond {m : MarginTable} {d : Nat} (beyond : ∀ k, (m.bands.get k).bound < d) :
    extraOf m (some d) = (m.bands.get 3).extra := by
  have found : ((List.finRange 4).find? fun j => decide (d ≤ (m.bands.get j).bound)) = none :=
    List.find?_eq_none.mpr fun j _ passes => absurd (beyond j) (not_lt.mpr (of_decide_eq_true passes))
  simp only [extraOf, found, Option.getD_none]

/-- A track's shadow box from the extra of its distance. -/
theorem shadowBox_eq (policy : Row 6 ClassPolicy) (m : MarginTable) (t : Track) {extra : Nat}
    (widened : extraOf m t.distance = extra) :
    shadowBox policy m t = ⟨t.left - ((policyOf policy t.cls).marginLeft + extra),
      t.right + ((policyOf policy t.cls).marginRight + extra), t.upper + (policyOf policy t.cls).marginTop, t.lower⟩ := by
  subst widened
  simp only [shadowBox, policyOf, Nat.cast_add]

/-! ## Shadows on a segment (R81, R86, R93) -/

/-- A class's eligible tracks. -/
theorem eligible_iff (policy : Row 6 ClassPolicy) (t : Track) :
    eligible policy t = true ↔ t.state = .confirmed ∨ t.state = .coasting
      ∨ (t.state = .tentative ∧ (policyOf policy t.cls).shadowTentative = true) := by
  cases state : t.state <;> simp [eligible, policyOf, state]

/-- The shadows of a table of tracks. -/
theorem mem_shadowsOf {hard : Bool} {tables : Tables} {tracks : Row 24 (Option Track)} {x : Shadow} :
    x ∈ shadowsOf hard tables tracks ↔ ∃ n t, tracks.get n = some t ∧ eligible tables.classPolicy t = true
      ∧ (policyOf tables.classPolicy t.cls).hard = hard
      ∧ x = ⟨shadowBox tables.classPolicy tables.margin t, (policyOf tables.classPolicy t.cls).shadowLevel⟩ := by
  simp only [shadowsOf, List.mem_filterMap, Row.mem_cells]
  constructor
  · rintro ⟨entry, ⟨n, at_⟩, cast_⟩
    cases entry
    case none => cases cast_
    case some t =>
      rw [Option.ite_none_right_eq_some, Bool.and_eq_true, beq_iff_eq, Option.some.injEq] at cast_
      obtain ⟨⟨may, isHard⟩, rfl⟩ := cast_
      exact ⟨n, t, at_, may, isHard, rfl⟩
  · rintro ⟨n, t, at_, may, isHard, rfl⟩
    refine ⟨some t, ⟨n, at_⟩, ?_⟩
    exact if_pos (Bool.and_eq_true_iff.mpr ⟨may, beq_iff_eq.mpr isHard⟩)

/-- The hard or the soft shadows of a plan. -/
def Plan.shadows (p : Plan) (hard : Bool) : List Shadow :=
  if hard then p.hard else p.soft

/-- A level at which a shadow of the tracks holds a segment it covers. -/
def ShadowedAt (b : BuildInputs) (l : Link) (i : SegNo) (hard : Bool) (x : Nat) : Prop :=
  (modeRow b.tables.mode (chooseMode b)).shadowsApply = true
    ∧ ∃ n t, b.tracks.get n = some t
      ∧ (t.state = .confirmed ∨ t.state = .coasting
        ∨ (t.state = .tentative ∧ (policyOf b.tables.classPolicy t.cls).shadowTentative = true))
      ∧ (policyOf b.tables.classPolicy t.cls).hard = hard
      ∧ covers (b.tables.segMap.get l) (shadowBox b.tables.classPolicy b.tables.margin t) i = true
      ∧ x = (policyOf b.tables.classPolicy t.cls).shadowLevel

/-- The plan holds the shadows of its tracks where the mode's row applies them. -/
theorem planOf_shadows (b : BuildInputs) (hard : Bool) :
    (planOf b).shadows hard
      = if (modeRow b.tables.mode (chooseMode b)).shadowsApply then shadowsOf hard b.tables b.tracks else [] := by
  cases hard <;> rfl

/-- The levels at which the plan's shadows hold a segment. -/
theorem shadowedAt_iff {b : BuildInputs} {l : Link} {i : SegNo} {hard : Bool} {x : Nat} :
    ShadowedAt b l i hard x
      ↔ ∃ s ∈ (planOf b).shadows hard, covers (b.tables.segMap.get l) s.box i = true ∧ x = s.level := by
  rw [planOf_shadows]
  constructor
  · rintro ⟨applied, n, t, at_, may, isHard, covered, rfl⟩
    rw [if_pos applied]
    exact ⟨_, mem_shadowsOf.mpr ⟨n, t, at_, (eligible_iff _ t).mpr may, isHard, rfl⟩, covered, rfl⟩
  · rintro ⟨s, member, covered, rfl⟩
    by_cases applied : (modeRow b.tables.mode (chooseMode b)).shadowsApply = true
    · rw [if_pos applied] at member
      obtain ⟨n, t, at_, may, isHard, rfl⟩ := mem_shadowsOf.mp member
      exact ⟨applied, n, t, at_, (eligible_iff _ t).mp may, isHard, covered, rfl⟩
    · rw [if_neg applied] at member
      exact absurd member List.not_mem_nil

/-- Shadows leave a segment outside the HIGH zone. -/
theorem shade_low {g : SegMapEntry} {i : SegNo} (low : ¬g.high.get i = true) (sh : List Shadow) (x : Nat) :
    shade g sh i x = x :=
  if_neg low

/-- The first shadow acts first. -/
theorem shade_cons {g : SegMapEntry} {i : SegNo} (high : g.high.get i = true) (s : Shadow) (sh : List Shadow) (x : Nat) :
    shade g (s :: sh) i x = shade g sh i (if covers g s.box i then min x s.level else x) := by
  simp only [shade, if_pos high, List.foldl_cons]

/-- A level shadows lower is the level of one of them. -/
theorem shade_attained {g : SegMapEntry} {i : SegNo} (high : g.high.get i = true) (sh : List Shadow) (x : Nat) :
    shade g sh i x = x ∨ ∃ s ∈ sh, covers g s.box i = true ∧ shade g sh i x = s.level := by
  induction sh generalizing x
  case nil => exact .inl (if_pos high)
  case cons s sh ih =>
    rw [shade_cons high]
    obtain kept | ⟨r, member, covered, lowered⟩ := ih (if covers g s.box i then min x s.level else x)
    · rw [kept]
      by_cases covered : covers g s.box i = true
      · rw [if_pos covered]
        exact (min_choice x s.level).imp_right fun least => ⟨s, List.mem_cons_self, covered, least⟩
      · exact .inl (if_neg covered)
    · exact .inr ⟨r, List.mem_cons_of_mem s member, covered, lowered⟩

section Shaded

variable {b : BuildInputs} {l : Link} {i : SegNo} (high : (b.tables.segMap.get l).high.get i = true) (hard : Bool) (x : Nat)

include high

/-- No shadow that covers a HIGH segment is exceeded. -/
theorem shade_le_of_shadowedAt {y : Nat} (shadowed : ShadowedAt b l i hard y) :
    shade (b.tables.segMap.get l) ((planOf b).shadows hard) i x ≤ y := by
  obtain ⟨s, member, covered, rfl⟩ := shadowedAt_iff.mp shadowed
  exact shade_le_level _ _ i x s member high covered

/-- A HIGH segment keeps its level or takes a shadow's. -/
theorem shade_eq_or_shadowedAt :
    shade (b.tables.segMap.get l) ((planOf b).shadows hard) i x = x
      ∨ ShadowedAt b l i hard (shade (b.tables.segMap.get l) ((planOf b).shadows hard) i x) :=
  (shade_attained high _ x).imp_right shadowedAt_iff.mpr

end Shaded

/-! ## Fixed windows (R88) -/

/-- The lamps a window is for. -/
theorem windowForLamp_iff (w : WindowLamp) (l : Link) :
    windowForLamp w l = true ↔ w = .both ∨ (w = .left ∧ l = .left) ∨ (w = .right ∧ l = .right) := by
  cases w <;> cases l <;> decide

/-- When a window acts on a segment. -/
def WindowActs (g : SegMapEntry) (mode : Mode) (l : Link) (i : SegNo) (w : FixedWindow) : Prop :=
  w.modes.getLsbD (modeNo mode).val = true
    ∧ (w.lamp = .both ∨ (w.lamp = .left ∧ l = .left) ∨ (w.lamp = .right ∧ l = .right))
    ∧ covers g ⟨w.left, w.right, w.upper, some w.lower⟩ i = true

section Windows

variable {g : SegMapEntry} {mode : Mode} {l : Link} {i : SegNo} {w : FixedWindow} (x : Nat)

/-- The condition of a window, read off its parts. -/
theorem windowActs_iff : (w.modes.getLsbD (modeNo mode).val && windowForLamp w.lamp l && covers g (windowBox w) i) = true
    ↔ WindowActs g mode l i w := by
  rw [Bool.and_eq_true, Bool.and_eq_true, windowForLamp_iff, and_assoc]
  rfl

/-- A window that does not act leaves the level. -/
theorem applyWindow_idle (idle : ¬WindowActs g mode l i w) : applyWindow g mode l i x w = x :=
  if_neg (mt windowActs_iff.mp idle)

/-- A cap. -/
theorem applyWindow_cap (acts : WindowActs g mode l i w) (cap : w.kind = .cap) :
    applyWindow g mode l i x w = min x w.level := by
  rw [applyWindow, if_pos (windowActs_iff.mpr acts), cap]

/-- A floor. -/
theorem applyWindow_floor (acts : WindowActs g mode l i w) (floor : w.kind = .floor) :
    applyWindow g mode l i x w = if g.high.get i then x else max x w.level := by
  rw [applyWindow, if_pos (windowActs_iff.mpr acts), floor]

end Windows

/-- The four windows act in their order, then the derating limits. -/
theorem targetLevel_eq (b : BuildInputs) (p : Plan) (l : Link) (i : SegNo) :
    let g := b.tables.segMap.get l
    let window (k : Fin 4) (x : Nat) : Nat := applyWindow g p.mode l i x (b.tables.window.get k)
    targetLevel b p l i = min (window 3 (window 2 (window 1 (window 0 (shade g p.soft i (levelled p g.columnPitch l i))))))
      (b.tables.derate.get (derateBand b l i)) := by
  unfold targetLevel
  rw [cells_eq_map]
  rfl

/-! ## Modules' windows: derating and failed segments (R89, R90, R96) -/

section Fitted

variable (b : BuildInputs) (l : Link)

/-- Whether a slot's module is fitted and not treated as absent. -/
def Fitted (k : Slot) : Prop :=
  ((b.tables.modules.get l).get k).present = true ∧ ((b.modules.get l).get k).treatedAbsent = false

/-- A fitted slot has a window. -/
theorem hasWindow_iff (k : Slot) :
    hasWindow ((b.tables.modules.get l).get k) ((b.modules.get l).get k) = true ↔ Fitted b l k := by
  simp [hasWindow, Fitted]

/-- The segments a window holds. -/
theorem windowHolds_iff (e : ModuleEntry) (i : SegNo) :
    windowHolds e i = true ↔ e.firstRow ≤ segRow i ∧ segRow i < e.firstRow + e.rowCount
      ∧ e.firstColumn ≤ segColumn i ∧ segColumn i < e.firstColumn + e.columnCount := by
  simp only [windowHolds, Bool.and_eq_true, decide_eq_true_eq, and_assoc]

variable {b l} {i : SegNo}

/-- The slots a segment may be derated by. -/
theorem drives_iff {k : Slot} :
    (hasWindow ((b.tables.modules.get l).get k) ((b.modules.get l).get k)
      && windowHolds ((b.tables.modules.get l).get k) i) = true
      ↔ Fitted b l k ∧ windowHolds ((b.tables.modules.get l).get k) i = true := by
  rw [Bool.and_eq_true, hasWindow_iff]

/-- No derating where no fitted module's window holds the segment. -/
theorem derateBand_none (outside : ∀ k, Fitted b l k → ¬windowHolds ((b.tables.modules.get l).get k) i = true) :
    derateBand b l i = 0 := by
  have found : [(0 : Slot), 1, 2, 3].find? (fun k =>
      hasWindow ((b.tables.modules.get l).get k) ((b.modules.get l).get k)
        && windowHolds ((b.tables.modules.get l).get k) i) = none :=
    List.find?_eq_none.mpr fun k _ drives => (drives_iff.mp drives).elim (outside k)
  simp only [derateBand, found]

/-- The band of the lowest fitted slot whose window holds the segment. -/
theorem derateBand_driver {k : Slot} (fitted : Fitted b l k)
    (holds : windowHolds ((b.tables.modules.get l).get k) i = true)
    (lowest : ∀ j < k, Fitted b l j → ¬windowHolds ((b.tables.modules.get l).get j) i = true) :
    derateBand b l i = Fin.ofNat 8 ((b.modules.get l).get k).band := by
  have found : [(0 : Slot), 1, 2, 3].find? (fun k =>
      hasWindow ((b.tables.modules.get l).get k) ((b.modules.get l).get k)
        && windowHolds ((b.tables.modules.get l).get k) i) = some k :=
    find?_finRange_least (k := 4) (drives_iff.mpr ⟨fitted, holds⟩) fun j drives =>
      not_lt.mp fun before => (drives_iff.mp drives).elim (lowest j before)
  simp only [derateBand, found]

/-- A segment is reported failed where a fitted module names it. -/
theorem reportedFailed_iff : reportedFailed b l i = true ↔ ∃ k n, Fitted b l k ∧ n ∈ ((b.modules.get l).get k).failed
    ∧ windowSegment ((b.tables.modules.get l).get k) n = some i := by
  have slots (k : Slot) : k ∈ [(0 : Slot), 1, 2, 3] := List.mem_finRange k
  simp only [reportedFailed, List.any_eq_true, Bool.and_eq_true, hasWindow_iff, decide_eq_true_eq]
  constructor
  · rintro ⟨k, _, fitted, n, member, names⟩
    exact ⟨k, n, fitted, member, names⟩
  · rintro ⟨k, n, fitted, member, names⟩
    exact ⟨k, slots k, fitted, n, member, names⟩

end Fitted

/-! ## The hard limits (R93 to R97) -/

/-- The mode's limit keeps a level or makes it 0. -/
theorem modeLimit_cases (m : Mode) (high : Bool) (x : Nat) :
    modeLimit m high x = x ∨ (modeLimit m high x = 0 ∧ (m = .off ∨ (high = true ∧ (m = .low ∨ m = .fallback)))) := by
  cases m
  case off => exact .inr ⟨rfl, .inl rfl⟩
  case low | fallback =>
    cases high
    case false => exact .inl rfl
    case true => exact .inr ⟨rfl, .inr ⟨rfl, by decide⟩⟩
  case town | country | motorway | adverse | full => exact .inl rfl

/-- A HIGH segment is dark in LOW and FALLBACK. -/
theorem modeLimit_dark {m : Mode} (dark : m = .low ∨ m = .fallback) (x : Nat) : modeLimit m true x = 0 := by
  obtain rfl | rfl := dark <;> rfl

/-- DIM keeps a level or makes it the dim level. -/
theorem dimLimit_cases (a : Action) (dim : Nat) (high : Bool) (x : Nat) :
    dimLimit a dim high x = x ∨ (high = true ∧ a = .dim ∧ dimLimit a dim high x = dim) := by
  unfold dimLimit
  split
  case isTrue dims =>
    rw [Bool.and_eq_true, decide_eq_true_eq] at dims
    obtain ⟨isDim, isHigh⟩ := dims
    exact (min_choice x dim).imp_right fun least => ⟨isHigh, isDim, least⟩
  case isFalse => exact .inl rfl

/-- DIM bounds a HIGH segment. -/
theorem dimLimit_le_dim (dim x : Nat) : dimLimit .dim dim true x ≤ dim := min_le_right x dim

section Limits

variable {b : BuildInputs} {p : Plan} {l : Link} {i : SegNo} (x : Nat)

/-- A failed segment is dark. -/
theorem hardLimits_failed (failed : reportedFailed b l i = true) : hardLimits b p l i x = 0 := if_pos failed

/-- The hard limits of a segment not failed. -/
theorem hardLimits_sound (sound : ¬reportedFailed b l i = true) :
    hardLimits b p l i x = dimLimit b.action b.tables.build.dimLevel ((b.tables.segMap.get l).high.get i)
      (modeLimit p.mode ((b.tables.segMap.get l).high.get i) (shade (b.tables.segMap.get l) p.hard i x)) :=
  if_neg sound

/-- The hard limits stay below the mode's limit. -/
theorem hardLimits_le_modeLimit : hardLimits b p l i x
    ≤ modeLimit p.mode ((b.tables.segMap.get l).high.get i) (shade (b.tables.segMap.get l) p.hard i x) := by
  by_cases failed : reportedFailed b l i = true
  · rw [hardLimits_failed x failed]
    exact Nat.zero_le _
  · rw [hardLimits_sound x failed]
    exact dimLimit_le _ _ _ _

/-- The hard limits stay below the hard shadows. -/
theorem hardLimits_le_shade : hardLimits b p l i x ≤ shade (b.tables.segMap.get l) p.hard i x :=
  (hardLimits_le_modeLimit x).trans (modeLimit_le _ _ _)

/-- OFF is dark. -/
theorem hardLimits_off (off : p.mode = .off) : hardLimits b p l i x = 0 := by
  have below := hardLimits_le_modeLimit (b := b) (p := p) (l := l) (i := i) x
  rw [off] at below
  exact Nat.le_zero.mp below

/-- LOW and FALLBACK are dark in the HIGH zone. -/
theorem hardLimits_dark (high : (b.tables.segMap.get l).high.get i = true) (dark : p.mode = .low ∨ p.mode = .fallback) :
    hardLimits b p l i x = 0 := by
  have below := hardLimits_le_modeLimit (b := b) (p := p) (l := l) (i := i) x
  rw [high, modeLimit_dark dark] at below
  exact Nat.le_zero.mp below

/-- DIM bounds the HIGH zone. -/
theorem hardLimits_dim (high : (b.tables.segMap.get l).high.get i = true) (dim : b.action = .dim) :
    hardLimits b p l i x ≤ b.tables.build.dimLevel := by
  by_cases failed : reportedFailed b l i = true
  · rw [hardLimits_failed x failed]
    exact Nat.zero_le _
  · rw [hardLimits_sound x failed, high, dim]
    exact dimLimit_le_dim _ _

/-- A hard limit that lowers a level is one of the five. -/
theorem hardLimits_cases : hardLimits b p l i x = shade (b.tables.segMap.get l) p.hard i x
    ∨ (hardLimits b p l i x = 0 ∧ (p.mode = .off ∨ reportedFailed b l i = true))
    ∨ ((b.tables.segMap.get l).high.get i = true
      ∧ ((hardLimits b p l i x = 0 ∧ (p.mode = .low ∨ p.mode = .fallback))
        ∨ (b.action = .dim ∧ hardLimits b p l i x = b.tables.build.dimLevel))) := by
  by_cases failed : reportedFailed b l i = true
  · exact .inr (.inl ⟨hardLimits_failed x failed, .inr failed⟩)
  · have sound := hardLimits_sound (p := p) x failed
    obtain undimmed | ⟨high, dim, dimmed⟩ := dimLimit_cases b.action b.tables.build.dimLevel
      ((b.tables.segMap.get l).high.get i)
      (modeLimit p.mode ((b.tables.segMap.get l).high.get i) (shade (b.tables.segMap.get l) p.hard i x))
    · obtain kept | ⟨dark, off | ⟨high, low⟩⟩ := modeLimit_cases p.mode ((b.tables.segMap.get l).high.get i)
        (shade (b.tables.segMap.get l) p.hard i x)
      · exact .inl (sound.trans (undimmed.trans kept))
      · exact .inr (.inl ⟨sound.trans (undimmed.trans dark), .inl off⟩)
      · exact .inr (.inr ⟨high, .inl ⟨sound.trans (undimmed.trans dark), low⟩⟩)
    · exact .inr (.inr ⟨high, .inr ⟨dim, sound.trans dimmed⟩⟩)

end Limits

/-- Settles O34: covering and shadow boxes, the levels before the ramp, and the five hard limits after it. -/
theorem finalLevelsObeyEveryHardLimit : Obligations.FinalLevelsObeyEveryHardLimit := by
  refine ⟨covers_iff, fun policy m t => ⟨fun absent => ?_, fun d known => ⟨fun k reaches lowest => ?_, fun beyond => ?_⟩⟩,
    fun b l i => ?_⟩
  · exact shadowBox_eq policy m t (congrArg (extraOf m) absent)
  · exact shadowBox_eq policy m t ((congrArg (extraOf m) known).trans (extraOf_reached reaches lowest))
  · exact shadowBox_eq policy m t ((congrArg (extraOf m) known).trans (extraOf_beyond beyond))
  · intro p g high level shadow base soft window slot view fitted holds failed
    have final : level = hardLimits b p l i (rampedLevel b p l i) := finalLevels_get b p l i
    have isFailed : reportedFailed b l i = true ↔ failed := reportedFailed_iff
    have isHolding (k : Slot) : windowHolds (slot k) i = true ↔ holds k := windowHolds_iff (slot k) i
    refine ⟨fun low => shade_low low _ _, fun isHigh => ⟨shade_le .., fun x => shade_le_of_shadowedAt isHigh false base,
      shade_eq_or_shadowedAt isHigh false base⟩, fun x w => ⟨applyWindow_idle x, applyWindow_cap x, applyWindow_floor x⟩,
      targetLevel_eq b p l i, fun outside => ?_, fun k isFitted held lowest few => ?_, ?_, fun off => ?_,
      fun dark isHigh => ?_, fun isHigh x shadowed => ?_, fun dim isHigh => ?_, fun dark => ?_, ?_⟩
    case refine_1 => exact derateBand_none fun k isFitted => mt (isHolding k).mp (outside k isFitted)
    case refine_2 =>
      have driver : derateBand b l i = Fin.ofNat 8 (view k).band :=
        derateBand_driver isFitted ((isHolding k).mpr held) fun j before isFitted =>
          mt (isHolding j).mp (lowest j before isFitted)
      rw [driver]
      exact Nat.mod_eq_of_lt (Nat.lt_succ_of_le few)
    case refine_3 => exact final.trans_le (hardLimits_le ..)
    case refine_4 => exact final.trans (hardLimits_off _ off)
    case refine_5 => exact final.trans (hardLimits_dark _ isHigh dark)
    case refine_6 =>
      exact (final.trans_le (hardLimits_le_shade _)).trans (shade_le_of_shadowedAt isHigh true _ shadowed)
    case refine_7 => exact final.trans_le (hardLimits_dim _ isHigh dim)
    case refine_8 => exact final.trans (hardLimits_failed _ (isFailed.mpr dark))
    case refine_9 =>
      rw [← isFailed, final]
      obtain shaded | dark | ⟨isHigh, dark | dim⟩ := hardLimits_cases (b := b) (p := p) (l := l) (i := i) (rampedLevel b p l i)
      · rw [shaded]
        by_cases isHigh : high
        · obtain kept | shadowed := shade_eq_or_shadowedAt isHigh true (rampedLevel b p l i)
          · exact .inl kept
          · exact .inr (.inr ⟨isHigh, .inr (.inl shadowed)⟩)
        · exact .inl (shade_low isHigh _ _)
      · exact .inr (.inl dark)
      · exact .inr (.inr ⟨isHigh, .inl dark⟩)
      · exact .inr (.inr ⟨isHigh, .inr (.inr dim)⟩)

end Sys2Proof.Machine

/-! The reset values of every block and the built-in tables (R21, R34, R57, R80, R122, R133, R149, R163, R178). -/

namespace Sys2Proof.Machine

/-! ## The built-in tables (R70 to R73, R170) -/

/-- A row of a built-in profile. -/
theorem profileRow_get (outer centre : Nat) (c : Fin 24) :
    (profileRow outer centre).get c = if 6 ≤ c.val ∧ c.val ≤ 17 then centre else outer := by
  simp only [profileRow, Row.get_tabulate, Bool.and_eq_true, decide_eq_true_eq]

/-- The levels of the built-in profiles' rows, outside the centre columns. -/
def builtInOuter : List (List Nat) :=
  [[0, 0, 200, 200], [0, 60, 220, 220], [160, 200, 200, 200], [120, 160, 180, 180], [0, 80, 220, 220],
    [255, 255, 255, 255], [0, 0, 200, 200], [0, 0, 200, 200]]

/-- The levels of the built-in profiles' rows in the centre columns. -/
def builtInCentre : List (List Nat) :=
  [[0, 0, 200, 200], [0, 100, 220, 220], [255, 255, 220, 200], [255, 255, 200, 180], [0, 120, 220, 220],
    [255, 255, 255, 255], [0, 0, 200, 200], [0, 0, 200, 200]]

/-- The rows of the built-in profiles. -/
theorem builtInProfile_row (n : Fin 8) (l : Link) (r : Fin 4) : ((builtInProfile.get n).levels.get l).get r
    = profileRow ((builtInOuter.getD n []).getD r 0) ((builtInCentre.getD n []).getD r 0) := by
  cases l <;> fin_cases n <;> fin_cases r <;> rfl

/-- A level of the built-in profiles. -/
theorem builtInProfile_level (n : Fin 8) (l : Link) (r : Fin 4) (c : Fin 24) :
    (((builtInProfile.get n).levels.get l).get r).get c
      = ((if 6 ≤ c.val ∧ c.val ≤ 17 then builtInCentre else builtInOuter).getD n []).getD r 0 := by
  rw [builtInProfile_row, profileRow_get]
  split <;> rfl

/-- Every built-in profile holds its edge. -/
theorem builtInProfile_edge (n : Fin 8) : (builtInProfile.get n).edge = .hold := by
  revert n
  decide

/-- The HIGH zone of the built-in Segment Map is its two upper rows. -/
theorem builtInSegMapEntry_high (origin : Int) (i : SegNo) :
    (builtInSegMapEntry origin).high.get i = true ↔ i.val / 24 ≤ 1 := by
  rw [builtInSegMapEntry, Row.get_tabulate, decide_eq_true_iff]
  omega

/-- The built-in Segment Map. -/
theorem builtInSegMap_entry (l : Link) :
    builtInSegMap.get l = builtInSegMapEntry (match l with | .left => -276 | .right => -270) := by
  cases l <;> rfl

/-- The values of a built-in Curve band at b1 to b4. -/
def builtInCurveValues (k : Fin 8) : List Int :=
  [[20, 60, 120, 150], [20, 60, 110, 140], [25, 70, 110, 130], [30, 75, 100, 120], [35, 70, 90, 100], [35, 60, 80, 90],
    [30, 50, 60, 70], [25, 40, 50, 60]].getD k []

/-- The built-in Curve bands are mirrored at the point 0. -/
theorem builtInCurve_band (k : Fin 8) :
    (builtInCurve.bands.get k).bound = [300, 500, 700, 900, 1100, 1300, 1600, 2000].getD k 0
      ∧ (builtInCurve.bands.get k).values.cells
        = ((builtInCurveValues k).map fun x => -x).reverse ++ [0] ++ builtInCurveValues k := by
  revert k
  decide

/-! ## The links after power-on (R103, R122) -/

/-- A module record at reset. -/
theorem slcReset_module (t : Tables) (l : Link) (k : Slot) :
    (slcReset t l).modules.get k = moduleSetUp ((t.modules.get l).get k) :=
  Row.get_map _ _ k

/-- The reports of a link whose modules are just set up. -/
theorem slcReset_sent (l : Link) : (slcReset builtInTables l).sent = ⟨false, false, false, false⟩ := by
  cases l <;> decide

/-- Settles O7: each block's reset value and each built-in table. -/
theorem resetValuesOfEveryBlock : Obligations.ResetValuesOfEveryBlock := by
  unfold Obligations.ResetValuesOfEveryBlock
  intro s
  refine ⟨⟨rfl, rfl, rfl, rfl, rfl, rfl, rfl, rfl, rfl, rfl, rfl, rfl, rfl, rfl⟩, rfl, rfl,
    ⟨rfl, rfl, rfl, rfl, rfl, rfl, rfl, rfl, rfl, rfl, rfl⟩, fun l => ?_, rfl, ⟨rfl, rfl, rfl, rfl, rfl, rfl, rfl⟩, rfl, rfl, ?_⟩
  case refine_1 =>
    have reset : s.links.get l = slcReset builtInTables l := by cases l <;> rfl
    have set_up (k : Slot) : (s.links.get l).modules.get k = moduleSetUp (builtInModuleRows.get k) := by
      rw [reset, slcReset_module]
      cases l <;> rfl
    refine ⟨?_, ?_, ?_, ?_, ?_, ?_, ?_, ?_, ?_, ?_, ?_, ?_, ?_, reset ▸ slcReset_sent l, fun k => ?_⟩
    case refine_14 => rw [set_up, moduleSetUp]
    all_goals cases l <;> rfl
  case refine_2 =>
    intro t
    refine ⟨rfl, rfl, rfl, fun l => ?_, fun n l r c => ⟨builtInProfile_edge n, builtInProfile_level n l r c⟩,
      ⟨rfl, rfl, rfl, rfl⟩, builtInCurve_band, ⟨rfl, rfl⟩, rfl, rfl, rfl, fun l => ?_, rfl, rfl, rfl⟩
    · have entry : t.segMap.get l = builtInSegMapEntry (match l with | .left => -276 | .right => -270) :=
        builtInSegMap_entry l
      rw [entry]
      exact ⟨rfl, rfl, rfl, rfl, builtInSegMapEntry_high _⟩
    · cases l <;> exact ⟨rfl, rfl, rfl, rfl⟩

end Sys2Proof.Machine
